-- ==== Sys2Proof/Word.lean ====
section
/-! DEFINITION. The block's plain value types: channel indexes, the named debounce states and phases, the debounce
register file, and W-bit wrapping. All values are unsigned (spec/00 R9); every time counts milliseconds (R12). -/

namespace Sys2Proof

/-- A channel index 0..3, two bits wide (R6). -/
abbrev Channel := Fin 4

/-- The four debounce states, in the order spec/30 R47 lists them. -/
inductive DebState where
  | down | up | falling | rising
deriving DecidableEq, Repr

/-- The five game phases, in the order spec/30 R48 lists them. -/
inductive Phase where
  | idle | gameOn | give | receive | lost
deriving DecidableEq, Repr

/-- The five decode-key formats of spec/30 R46. -/
inductive Format where
  | deb | evt | ph | gate | mux
deriving DecidableEq, Repr

/-- The four debounce registers `deb[0..3]` (spec/10 R17). -/
structure DebFile where
  d0 : DebState
  d1 : DebState
  d2 : DebState
  d3 : DebState
deriving DecidableEq, Repr

/-- `deb[i]`. -/
def DebFile.get (d : DebFile) (i : Channel) : DebState :=
  match i with
  | 0 => d.d0
  | 1 => d.d1
  | 2 => d.d2
  | 3 => d.d3

/-- `deb[i] <- v`. -/
def DebFile.set (d : DebFile) (i : Channel) (v : DebState) : DebFile :=
  match i with
  | 0 => { d with d0 := v }
  | 1 => { d with d1 := v }
  | 2 => { d with d2 := v }
  | 3 => { d with d3 := v }

/-- Every channel in the same debounce state. -/
def DebFile.all (v : DebState) : DebFile := ⟨v, v, v, v⟩

/-- The value of a `w`-bit register or port that is given `x`: `x mod 2^w` (R9). -/
def wrap (w x : Nat) : Nat := x % 2 ^ w

/-- `x - y mod 2^w`, the wrapping subtraction of R9. -/
def wrapSub (w x y : Nat) : Nat := (x + (2 ^ w - y % 2 ^ w)) % 2 ^ w

end Sys2Proof
end

