-- ==== Sys2Proof/Config.lean ====
section
/-! DEFINITION. What an implementation fixes: the fourteen parameters of spec/00 R7 with the spec's defaults, and the
free values the environment supplies on a tick for which no stimulus line is given. -/

namespace Sys2Proof

/-- The parameters of spec/00 R7, field by field in the order of its table. They are fixed when the block is built
and no port writes them (spec/10 R28). -/
structure Params where
  wMs : Nat
  wCnt : Nat
  tIdleBlink : Nat
  tPollIdle : Nat
  tPollActive : Nat
  tPollGameOn : Nat
  tPollLost : Nat
  tGameOnToggle : Nat
  nGameOnToggles : Nat
  tGiveWait : Nat
  tReceiveTimeout : Nat
  tLostToggle : Nat
  nLostToggles : Nat
  givenClearOnGive : Bool
deriving DecidableEq, Repr

/-- The default column of the table of R7. `wMs := 32` is the spec's general knowledge G1: PRESUMED, log 4. -/
def Params.default : Params where
  wMs := 32
  wCnt := 3
  tIdleBlink := 1000
  tPollIdle := 1000
  tPollActive := 40
  tPollGameOn := 40
  tPollLost := 40
  tGameOnToggle := 300
  nGameOnToggles := 6
  tGiveWait := 3000
  tReceiveTimeout := 3000
  tLostToggle := 300
  nLostToggles := 7
  givenClearOnGive := true

/-- The parameters that a constraint of R7 restricts: the `name` of `BadParameter(name)` (spec/60 R105). -/
inductive ParamName where
  | wMs | tIdleBlink | tPollIdle | tPollActive | tPollGameOn | tPollLost | tGameOnToggle | tGiveWait
  | tReceiveTimeout | tLostToggle | wCnt | nGameOnToggles | nLostToggles
deriving DecidableEq, Repr

/-- Free value: the `now` the environment drives on the n-th tick when no stimulus line gives one (I4, log 2, log 3). -/
opaque Config.freeNow (n : Nat) : Nat
/-- Free value: the `btn_n` the environment drives on the n-th tick when no stimulus line gives one (R132, log 2). -/
opaque Config.freeBtn (n : Nat) : BitVec 4
/-- Free value: the `rnd` draw of the n-th tick when no stimulus line gives one (R31, I5, log 2). -/
opaque Config.freeRnd (n : Nat) : Channel
/-- Free value: the `rst` the environment drives on the n-th tick when no stimulus line gives one (R132, log 2). -/
opaque Config.freeRst (n : Nat) : Bool

end Sys2Proof
end

