-- ==== Sys2Proof/Syntax.lean ====
section
/-! DEFINITION. The block's operations, one constructor per row of spec/opcode_table.json, the raw key word that selects
one (spec/30 R46), and the input line of one tick (R56, R57). -/

namespace Sys2Proof

/-- The block's internal operations (spec/00 R2). A DEB step and an event carry the channel index `i` beside the
key (R50, R51); MUX.ONE carries `idx` (R53). Every operand is bounded by its type. -/
inductive Instr where
  /-- DEB.DOWN0, key `000`. -/
  | debDown0 (i : Channel)
  /-- DEB.DOWN1, key `001`. -/
  | debDown1 (i : Channel)
  /-- DEB.UP0, key `010`. -/
  | debUp0 (i : Channel)
  /-- DEB.UP1, key `011`. -/
  | debUp1 (i : Channel)
  /-- DEB.FALL0, key `100`. -/
  | debFall0 (i : Channel)
  /-- DEB.FALL1, key `101`. -/
  | debFall1 (i : Channel)
  /-- DEB.RISE0, key `110`. -/
  | debRise0 (i : Channel)
  /-- DEB.RISE1, key `111`. -/
  | debRise1 (i : Channel)
  /-- EVT.PRESS, key `0`. -/
  | evtPress (i : Channel)
  /-- EVT.RELEASE, key `1`. -/
  | evtRelease (i : Channel)
  /-- PH.IDLE, phase code `000`. -/
  | phIdle
  /-- PH.GAMEON, phase code `001`. -/
  | phGameOn
  /-- PH.GIVE, phase code `010`. -/
  | phGive
  /-- PH.RECEIVE, phase code `011`. -/
  | phReceive
  /-- PH.LOST, phase code `100`. -/
  | phLost
  /-- PH.ILLEGAL, the row of phase code `101`. -/
  | phIllegal101
  /-- PH.ILLEGAL, the row of phase code `110`. -/
  | phIllegal110
  /-- PH.ILLEGAL, the row of phase code `111`. -/
  | phIllegal111
  /-- GATE.POLL, key `0`. -/
  | gatePoll
  /-- GATE.PHASE, key `1`. -/
  | gatePhase
  /-- MUX.HOLD, select `000`. -/
  | muxHold
  /-- MUX.OFF, select `001`. -/
  | muxOff
  /-- MUX.ALL, select `010`. -/
  | muxAll
  /-- MUX.RSVD, select `011`. -/
  | muxRsvd
  /-- MUX.ONE, select `1ii`. -/
  | muxOne (idx : Channel)
  /-- TICK, a composite with no key. -/
  | tick
  /-- POLL, a composite with no key. -/
  | poll
deriving DecidableEq, Repr

/-- A raw decode key: its format, the channel index carried with it (0 where the format carries none) and the key
bits as a number, bit 0 the least significant (R9, R46). -/
structure KeyWord where
  fmt : Format
  chan : Channel
  bits : Nat
deriving DecidableEq, Repr

/-- One line of a stimulus program: the inputs of one tick (R56, R57). `rnd` is `none` where the line omits it. -/
structure TickLine where
  now : Nat
  btnN : BitVec 4
  rnd : Option Channel
  rst : Bool
deriving DecidableEq, Repr

end Sys2Proof
end

