-- ==== Sys2Proof/WellFormed.lean ====
section
/-! DEFINITION. The checks on what is supplied from outside: parameter sets (spec/00 R7), raw key words (spec/30 R46),
stimulus lines (R57), and which operations have a key at all. -/

namespace Sys2Proof

/-- `T` lies in `0 .. 2^W_MS - 1`. -/
def Params.timeOk (p : Params) (t : Nat) : Bool := decide (t < 2 ^ p.wMs)

/-- `N` lies in `0 .. 2^W_CNT - 1`. -/
def Params.countOk (p : Params) (n : Nat) : Bool := decide (n < 2 ^ p.wCnt)

/-- The constraints of R7 on a parameter set, all of them. -/
def Params.wf (p : Params) : Bool :=
  decide (1 ≤ p.wMs) && p.timeOk p.tIdleBlink && p.timeOk p.tPollIdle && p.timeOk p.tPollActive
    && p.timeOk p.tPollGameOn && p.timeOk p.tPollLost && p.timeOk p.tGameOnToggle && p.timeOk p.tGiveWait
    && p.timeOk p.tReceiveTimeout && p.timeOk p.tLostToggle
    && decide (1 ≤ p.wCnt) && p.countOk p.nGameOnToggles && p.countOk p.nLostToggles

/-- The number of key bits of a format (R46). -/
def Format.width (f : Format) : Nat :=
  match f with
  | .deb => 3
  | .evt => 1
  | .ph => 3
  | .gate => 1
  | .mux => 3

/-- Whether the format's key carries a channel index (R50, R51). -/
def Format.carriesChannel (f : Format) : Bool :=
  match f with
  | .deb => true
  | .evt => true
  | .ph => false
  | .gate => false
  | .mux => false

/-- A key word is well formed when its bits fit the format's width and no channel is given to a format that carries
none. -/
def KeyWord.wf (k : KeyWord) : Bool :=
  decide (k.bits < 2 ^ k.fmt.width) && (k.fmt.carriesChannel || decide (k.chan = 0))

/-- A stimulus line is well formed when its `now` is a W_MS-bit number (R57). -/
def TickLine.wf (p : Params) (l : TickLine) : Bool := decide (l.now < 2 ^ p.wMs)

/-- The operations a key can select: all but the composites TICK and POLL (R46). -/
def Instr.keyed (i : Instr) : Bool :=
  match i with
  | .tick => false
  | .poll => false
  | .debDown0 _ | .debDown1 _ | .debUp0 _ | .debUp1 _ | .debFall0 _ | .debFall1 _ | .debRise0 _ | .debRise1 _ => true
  | .evtPress _ | .evtRelease _ => true
  | .phIdle | .phGameOn | .phGive | .phReceive | .phLost | .phIllegal101 | .phIllegal110 | .phIllegal111 => true
  | .gatePoll | .gatePhase | .muxHold | .muxOff | .muxAll | .muxRsvd | .muxOne _ => true

end Sys2Proof
end

