-- ==== Sys2Proof/Decode.lean ====
section
/-! DEFINITION. The state codes of spec/30 R47 and R48, the five decode keys of R46 with their decoder, the encoder
written from the same tables, and the host's `decodeTableWord`. -/

namespace Sys2Proof

/-- The 2-bit debounce state codes of R47. -/
def DebState.code (d : DebState) : BitVec 2 :=
  match d with
  | .down => 0b00#2
  | .up => 0b01#2
  | .falling => 0b10#2
  | .rising => 0b11#2

/-- The state a 2-bit code names; every code is a state (R47). -/
def DebState.ofCode (c : BitVec 2) : DebState :=
  match c.toNat with
  | 0 => .down
  | 1 => .up
  | 2 => .falling
  | _ => .rising

/-- The 3-bit phase codes of R48. -/
def Phase.code (p : Phase) : BitVec 3 :=
  match p with
  | .idle => 0b000#3
  | .gameOn => 0b001#3
  | .give => 0b010#3
  | .receive => 0b011#3
  | .lost => 0b100#3

/-- The phase a code names; none for the illegal codes 101, 110 and 111 (R49). -/
def phaseOf (c : BitVec 3) : Option Phase :=
  match c.toNat with
  | 0 => some .idle
  | 1 => some .gameOn
  | 2 => some .give
  | 3 => some .receive
  | 4 => some .lost
  | _ => none

/-- A channel index as two bits, and back. -/
def channelBits (i : Channel) : BitVec 2 := BitVec.ofNat 2 i.val

/-- The channel index two bits hold. -/
def channelOfBits (b : BitVec 2) : Channel := ⟨b.toNat % 4, Nat.mod_lt _ (by decide)⟩

/-- The DEB key `{deb[i], btn_n[i]}` (R50). -/
def debKey (d : DebState) (b : Bool) : BitVec 3 := d.code ++ BitVec.ofBool b

/-- The operation a DEB key selects on channel `i`: the table of R50. -/
def decodeDeb (i : Channel) (k : BitVec 3) : Instr :=
  match k.toNat with
  | 0 => .debDown0 i
  | 1 => .debDown1 i
  | 2 => .debUp0 i
  | 3 => .debUp1 i
  | 4 => .debFall0 i
  | 5 => .debFall1 i
  | 6 => .debRise0 i
  | _ => .debRise1 i

/-- The event an EVT key selects on channel `i` (R51). -/
def decodeEvt (i : Channel) (k : BitVec 1) : Instr :=
  match k.toNat with
  | 0 => .evtPress i
  | _ => .evtRelease i

/-- The handler a PH key selects (R48, R49). -/
def decodePh (k : BitVec 3) : Instr :=
  match k.toNat with
  | 0 => .phIdle
  | 1 => .phGameOn
  | 2 => .phGive
  | 3 => .phReceive
  | 4 => .phLost
  | 5 => .phIllegal101
  | 6 => .phIllegal110
  | _ => .phIllegal111

/-- The gate a GATE key selects (R52). -/
def decodeGate (k : BitVec 1) : Instr :=
  match k.toNat with
  | 0 => .gatePoll
  | _ => .gatePhase

/-- The LED command a MUX select chooses: `sel[2] = 1` is ONE with operand `sel[1:0]` (R53). -/
def decodeMux (sel : BitVec 3) : Instr :=
  if sel.getLsbD 2 then .muxOne (channelOfBits (sel.extractLsb' 0 2))
  else
    match sel.toNat with
    | 0 => .muxHold
    | 1 => .muxOff
    | 2 => .muxAll
    | _ => .muxRsvd

/-- Why a raw key word selects nothing. -/
inductive DecodeError where
  /-- The bits do not fit the format's fixed width (R46, R58). -/
  | keyTooWide (f : Format) (bits : Nat)
deriving DecidableEq, Repr

/-- The operation a raw key word selects, whatever its bits; a word wider than the key is rejected by name. Reserved
and illegal codes (R54) select their own rows, whose meaning refuses. -/
def decodeWord (k : KeyWord) : Except DecodeError Instr :=
  if k.bits < 2 ^ k.fmt.width then
    .ok (match k.fmt with
      | .deb => decodeDeb k.chan (BitVec.ofNat 3 k.bits)
      | .evt => decodeEvt k.chan (BitVec.ofNat 1 k.bits)
      | .ph => decodePh (BitVec.ofNat 3 k.bits)
      | .gate => decodeGate (BitVec.ofNat 1 k.bits)
      | .mux => decodeMux (BitVec.ofNat 3 k.bits))
  else .error (.keyTooWide k.fmt k.bits)

/-- The key word that selects an operation, from the tables of R48 to R53; TICK and POLL have none (R46). -/
def encode (i : Instr) : Option KeyWord :=
  match i with
  | .debDown0 i => some ⟨.deb, i, 0b000⟩
  | .debDown1 i => some ⟨.deb, i, 0b001⟩
  | .debUp0 i => some ⟨.deb, i, 0b010⟩
  | .debUp1 i => some ⟨.deb, i, 0b011⟩
  | .debFall0 i => some ⟨.deb, i, 0b100⟩
  | .debFall1 i => some ⟨.deb, i, 0b101⟩
  | .debRise0 i => some ⟨.deb, i, 0b110⟩
  | .debRise1 i => some ⟨.deb, i, 0b111⟩
  | .evtPress i => some ⟨.evt, i, 0b0⟩
  | .evtRelease i => some ⟨.evt, i, 0b1⟩
  | .phIdle => some ⟨.ph, 0, 0b000⟩
  | .phGameOn => some ⟨.ph, 0, 0b001⟩
  | .phGive => some ⟨.ph, 0, 0b010⟩
  | .phReceive => some ⟨.ph, 0, 0b011⟩
  | .phLost => some ⟨.ph, 0, 0b100⟩
  | .phIllegal101 => some ⟨.ph, 0, 0b101⟩
  | .phIllegal110 => some ⟨.ph, 0, 0b110⟩
  | .phIllegal111 => some ⟨.ph, 0, 0b111⟩
  | .gatePoll => some ⟨.gate, 0, 0b0⟩
  | .gatePhase => some ⟨.gate, 0, 0b1⟩
  | .muxHold => some ⟨.mux, 0, 0b000⟩
  | .muxOff => some ⟨.mux, 0, 0b001⟩
  | .muxAll => some ⟨.mux, 0, 0b010⟩
  | .muxRsvd => some ⟨.mux, 0, 0b011⟩
  | .muxOne idx => some ⟨.mux, 0, 0b100 + idx.val⟩
  | .tick => none
  | .poll => none

/-- The host's reading of one opcode-table word. The table's five keys share the same bits, and the one key the machine
itself dispatches on is the PH key, the phase register at the start of a tick (R46, R77): the word is read as that
key (log 1). `nbits` only says how many bits the word stands in. -/
def decodeTableWord (nbits w : Nat) : Option Instr :=
  if w < 2 ^ nbits then (decodeWord ⟨.ph, 0, w⟩).toOption else none

end Sys2Proof
end

