-- ==== Sys2Proof/Machine/State.lean ====
section
/-! DEFINITION. The state of the block (spec/10 section 2) with the inputs still to come and the block's parameters, the
state right after reset (spec/70 R117), and the reasons a step can stop (spec/60 R105). -/

namespace Sys2Proof.Machine

/-- The block raises no exception, trap or error signal (spec/60 R104): there is no fault, and nothing raises one. -/
inductive Fault
deriving DecidableEq, Repr

/-- Why the model stops. None is a behaviour of the hardware: each records that no source gives one (R105), so each
is safe. -/
inductive Refusal where
  /-- Raised by no meaning: an arm of exec still without one. Safe. -/
  | notModelled (mnemonic : String)
  /-- Raised by TICK and PH.ILLEGAL when `phase` holds 101, 110 or 111 (spec/42 R84), and by GATE.POLL and GATE.PHASE
  in such a state, which has no threshold (R49, log 10). Safe. -/
  | illegalPhase (code : BitVec 3)
  /-- Raised by MUX.RSVD, select 011 (spec/43 R102). Safe. -/
  | reservedMuxSelect
  /-- Raised by TICK before anything else when a parameter breaks a constraint of spec/00 R7 (R105). Safe. -/
  | badParameter (name : ParamName)
  /-- Raised where a tick reads `rnd` and its stimulus line omits it: the program is ill-formed (spec/30 R57, I15,
  log 7). Safe. -/
  | omittedRnd
deriving DecidableEq, Repr

/-- The registers of spec/10 section 2, then what stands outside the registers. -/
structure State where
  /-- `deb[0..3]` (R17). -/
  deb : DebFile
  /-- `phase[2:0]` (R18), the key TICK dispatches on. -/
  phase : BitVec 3
  /-- `target[1:0]` (R19). -/
  target : Channel
  /-- `given` (R20). -/
  given : Bool
  /-- `hit` (R21). -/
  hit : Bool
  /-- `cnt`, W_CNT bits (R22). -/
  cnt : Nat
  /-- `tD`, W_MS bits (R23). -/
  tD : Nat
  /-- `tP`, W_MS bits (R24). -/
  tP : Nat
  /-- `led[3:0]` (R25), which drives the LED port (R34). -/
  led : BitVec 4
  /-- The parameters the block was built with (spec/00 R7); no operation writes them (R28). -/
  params : Params
  /-- The model's own: the stimulus lines still to come, the head being the next tick's inputs (R56, log 2). -/
  stim : List TickLine
  /-- The model's own: ticks run so far, read only to draw free inputs when `stim` is empty (log 2). -/
  ticks : Nat
deriving DecidableEq, Repr

/-- RESET_STATE of spec/70 R117 at the default parameters, no stimulus loaded. The values of `stim` and `ticks` are
a DESIGN CHOICE (log 2). -/
def State.reset : State where
  deb := .all .up
  phase := 0b000#3
  target := 0
  given := false
  hit := false
  cnt := 0
  tD := 0
  tP := 0
  led := 0b0000#4
  params := .default
  stim := []
  ticks := 0

end Sys2Proof.Machine
end

