-- ==== Sys2Proof/Machine/Ops.lean ====
section
/-! DEFINITION. The named operations every meaning is built from: the sampled inputs (spec/20 R38), the register writes
(spec/00 R10), the reset load (spec/70 R117), the parameter check (R7) and the timing-gate comparison (spec/40 R59). -/

namespace Sys2Proof.Machine

/-- How a meaning ends. -/
abbrev Result := Host.Outcome State Fault Refusal

/-- The input sample of the tick: the next stimulus line, or free values where there is none (log 2, log 3). -/
def State.input (s : State) : TickLine :=
  match s.stim with
  | [] => ⟨Config.freeNow s.ticks, Config.freeBtn s.ticks, some (Config.freeRnd s.ticks), Config.freeRst s.ticks⟩
  | l :: _ => l

/-- The port `now[W_MS-1:0]` (spec/10 R30): W_MS bits wide, so it shows the value modulo 2^W_MS (log 6). -/
def State.now (s : State) : Nat := wrap s.params.wMs s.input.now

/-- The bit `btn_n[i]`: 1 is released, 0 is pressed (R32). -/
def State.btn (s : State) (i : Channel) : Bool := s.input.btnN.getLsbD i.val

/-- The port `rst` (R33). -/
def State.rst (s : State) : Bool := s.input.rst

/-- `s'.deb[i] <- v`. -/
def State.setDeb (i : Channel) (v : DebState) (s : State) : State := { s with deb := s.deb.set i v }
/-- `s'.phase <- p`. -/
def State.setPhase (p : Phase) (s : State) : State := { s with phase := p.code }
/-- `s'.target <- c`. -/
def State.setTarget (c : Channel) (s : State) : State := { s with target := c }
/-- `s'.cnt <- n`; the register is W_CNT bits wide (R22). -/
def State.setCnt (n : Nat) (s : State) : State := { s with cnt := wrap s.params.wCnt n }
/-- `s'.tD <- now`. -/
def State.markPoll (s : State) : State := { s with tD := s.now }
/-- `s'.tP <- now`. -/
def State.markPhase (s : State) : State := { s with tP := s.now }
/-- `s'.led <- v`. -/
def State.setLed (v : BitVec 4) (s : State) : State := { s with led := v }

/-- Every register at its value in RESET_STATE (R117); the clock, the inputs and the parameters are untouched (R119). -/
def State.resetRegs (s : State) : State :=
  { s with
    deb := .all .up, phase := Phase.idle.code, target := 0, given := false, hit := false,
    cnt := 0, tD := 0, tP := 0, led := 0b0000#4 }

/-- After a tick: its input sample is used up and the next one stands at the ports. -/
def State.advance (s : State) : State := { s with stim := s.stim.tail, ticks := s.ticks + 1 }

/-- A stimulus program loaded from outside (spec/30 R56). -/
def State.withStim (s : State) (p : List TickLine) : State := { s with stim := p }

/-- The constraints of R7, each with the parameter it restricts, in the order R7 states them. -/
def paramChecks (p : Params) : List (ParamName × Bool) :=
  [(.wMs, decide (1 ≤ p.wMs)), (.tIdleBlink, p.timeOk p.tIdleBlink), (.tPollIdle, p.timeOk p.tPollIdle),
   (.tPollActive, p.timeOk p.tPollActive), (.tPollGameOn, p.timeOk p.tPollGameOn),
   (.tPollLost, p.timeOk p.tPollLost), (.tGameOnToggle, p.timeOk p.tGameOnToggle),
   (.tGiveWait, p.timeOk p.tGiveWait), (.tReceiveTimeout, p.timeOk p.tReceiveTimeout),
   (.tLostToggle, p.timeOk p.tLostToggle), (.wCnt, decide (1 ≤ p.wCnt)),
   (.nGameOnToggles, p.countOk p.nGameOnToggles), (.nLostToggles, p.countOk p.nLostToggles)]

/-- The first constraint of R7 a parameter set breaks, if any (R105, log 5). -/
def checkParams (p : Params) : Option ParamName :=
  ((paramChecks p).find? fun c => !c.2).map Prod.fst

/-- `elapsed = (now - mark) mod 2^W_MS` (R59). -/
def State.elapsed (s : State) (mark : Nat) : Nat := wrapSub s.params.wMs s.now mark

/-- `Gate(mark, T)`: elapsed is at least T, unsigned and exact (R59, R63). -/
def State.gate (s : State) (mark t : Nat) : Bool := decide (t ≤ s.elapsed mark)

/-- Use the tick's `rnd` draw; a line that omits it on a tick that reads it is refused (R57, log 7). -/
def withRnd (s : State) (f : Channel → State) : Result :=
  match s.input.rnd with
  | some r => .next (f r)
  | none => .refused .omittedRnd

end Sys2Proof.Machine
end

