-- ==== Sys2Proof/Machine/Operands.lean ====
section
/-! DEFINITION. Operand assembly (spec/30 R55): channel masks, the thresholds of the two gates in each phase, the toggle
selection, and the LED values the mux drives (spec/00 R11). -/

namespace Sys2Proof.Machine

/-- `onehot(i)`: bit i set and every other bit clear (R11). -/
def onehot (i : Channel) : BitVec 4 :=
  match i with
  | 0 => 0b0001#4
  | 1 => 0b0010#4
  | 2 => 0b0100#4
  | 3 => 0b1000#4

/-- ALL_ON (R11). -/
def allOn : BitVec 4 := 0b1111#4

/-- ALL_OFF (R11). -/
def allOff : BitVec 4 := 0b0000#4

/-- `T_POLL(p)` (R8). -/
def tPoll (q : Params) (p : Phase) : Nat :=
  match p with
  | .idle => q.tPollIdle
  | .gameOn => q.tPollGameOn
  | .give => q.tPollActive
  | .receive => q.tPollActive
  | .lost => q.tPollLost

/-- `T_action(p)`, the threshold of the phase's periodic action (spec/40 R61). -/
def tAction (q : Params) (p : Phase) : Nat :=
  match p with
  | .idle => q.tIdleBlink
  | .gameOn => q.tGameOnToggle
  | .give => q.tGiveWait
  | .receive => q.tReceiveTimeout
  | .lost => q.tLostToggle

/-- `cnt[0]`: 0 selects the toggle's "on" value and 1 its "off" value (R55). -/
def toggleBit (cnt : Nat) : Bool := decide (cnt % 2 = 1)

end Sys2Proof.Machine
end

