-- ==== Sys2Proof/Machine/Flags.lean ====
section
/-! DEFINITION. The block's only flags, `given` and `hit` (spec/10 R27): their writes and the tests that read them. No
operation sets a flag as a hidden side effect (R92). -/

namespace Sys2Proof.Machine

/-- `s'.given <- b`. -/
def State.setGiven (b : Bool) (s : State) : State := { s with given := b }

/-- `s'.hit <- b`. -/
def State.setHit (b : Bool) (s : State) : State := { s with hit := b }

/-- Entry to Give clears `given` if GIVEN_CLEAR_ON_GIVE (R80, R92). -/
def State.clearGivenOnGive (s : State) : State := if s.params.givenClearOnGive then s.setGiven false else s

/-- A RELEASE is a premature press: Give with the mole not presented (R86). -/
def State.premature (s : State) : Bool := decide (s.phase = Phase.give.code) && !s.given

/-- A RELEASE is compared with the lit mask: Receive with no hit yet (R86). -/
def State.comparing (s : State) : Bool := decide (s.phase = Phase.receive.code) && !s.hit

end Sys2Proof.Machine
end

