-- ==== Sys2Proof/Machine/Mux.lean ====
section
/-! DEFINITION. The LED output mux (spec/43): each command writes one 4-bit value to `led`, or nothing. -/

namespace Sys2Proof.Machine

/-- Mux(OFF): `s'.led <- 0b0000` (R99). -/
def ledOff (s : State) : State := s.setLed allOff
/-- Mux(ALL): `s'.led <- 0b1111` (R100). -/
def ledAll (s : State) : State := s.setLed allOn
/-- Mux(ONE(idx)): `s'.led <- onehot(idx)` (R101). -/
def ledOne (idx : Channel) (s : State) : State := s.setLed (onehot idx)

/-- MUX.HOLD (R98): no write. -/
def execMuxHold (s : State) : Result := .next s
/-- MUX.OFF (R99). -/
def execMuxOff (s : State) : Result := .next (ledOff s)
/-- MUX.ALL (R100). -/
def execMuxAll (s : State) : Result := .next (ledAll s)
/-- MUX.ONE (R101). -/
def execMuxOne (idx : Channel) (s : State) : Result := .next (ledOne idx s)
/-- MUX.RSVD (R102): `refuse ReservedMuxSelect`. -/
def execMuxRsvd (_s : State) : Result := .refused .reservedMuxSelect

end Sys2Proof.Machine
end

