-- ==== Sys2Proof/Machine/Events.lean ====
section
/-! DEFINITION. The two game-rule events the debounce machines raise (spec/42 R85, R86). -/

namespace Sys2Proof.Machine

/-- EventPress (R85): in Idle it starts a round; in every other phase it has no effect. The channel does not matter. That
it has no effect in an illegal phase either, where R85 does not name it, is the model's choice (DESIGN CHOICE, log 15). -/
def eventPress (_i : Channel) (s : State) : State :=
  if s.phase = Phase.idle.code then ((s.setPhase .gameOn).setCnt 0).markPhase else s

/-- EventRelease (R86): premature press in Give; comparison with the lit mask in Receive; else no effect. That an
illegal phase, which R86 does not name, is among the "else" is the model's choice (DESIGN CHOICE, log 15). -/
def eventRelease (i : Channel) (s : State) : State :=
  if s.premature then s.setPhase .lost
  else if s.comparing then
    if s.led = onehot i then s.setHit true
    else (ledOff (s.setHit false)).setPhase .lost
  else s

/-- EVT.PRESS (R85). -/
def execEvtPress (i : Channel) (s : State) : Result := .next (eventPress i s)
/-- EVT.RELEASE (R86). -/
def execEvtRelease (i : Channel) (s : State) : Result := .next (eventRelease i s)

end Sys2Proof.Machine
end

