-- ==== Sys2Proof/Machine/Debounce.lean ====
section
/-! DEFINITION. The eight debounce transitions (spec/41 R65 to R72), the selection by key (spec/30 R50) and the poll pass
over the channels (R73). Each rule is its pseudocode, whatever the state it is executed in (log 9). -/

namespace Sys2Proof.Machine

/-- R65: first pressed sample after Up. -/
def debUp0 (i : Channel) (s : State) : State := s.setDeb i .falling
/-- R66: a released channel stays released. -/
def debUp1 (i : Channel) (s : State) : State := s.setDeb i .up
/-- R67: press confirmed, PRESS(i) executed at once. -/
def debFall0 (i : Channel) (s : State) : State := eventPress i (s.setDeb i .down)
/-- R68: bounce rejected. -/
def debFall1 (i : Channel) (s : State) : State := s.setDeb i .up
/-- R69: first released sample after Down, RELEASE(i) executed at once. -/
def debDown1 (i : Channel) (s : State) : State := eventRelease i (s.setDeb i .rising)
/-- R70: a held channel stays pressed. -/
def debDown0 (i : Channel) (s : State) : State := s.setDeb i .down
/-- R71: release confirmed. -/
def debRise1 (i : Channel) (s : State) : State := s.setDeb i .up
/-- R72: bounce rejected. -/
def debRise0 (i : Channel) (s : State) : State := s.setDeb i .down

/-- One channel's step of a poll: the rule its key `{deb[i], btn_n[i]}` selects (R50, R73). -/
def debStep (i : Channel) (s : State) : State :=
  match s.deb.get i, s.btn i with
  | .down, false => debDown0 i s
  | .down, true => debDown1 i s
  | .up, false => debUp0 i s
  | .up, true => debUp1 i s
  | .falling, false => debFall0 i s
  | .falling, true => debFall1 i s
  | .rising, false => debRise0 i s
  | .rising, true => debRise1 i s

/-- Poll(): the channels in ascending order, each seeing the writes of the ones before (R73). -/
def pollPass (s : State) : State := debStep 3 (debStep 2 (debStep 1 (debStep 0 s)))

/-- DEB.UP0 (R65). -/
def execDebUp0 (i : Channel) (s : State) : Result := .next (debUp0 i s)
/-- DEB.UP1 (R66). -/
def execDebUp1 (i : Channel) (s : State) : Result := .next (debUp1 i s)
/-- DEB.FALL0 (R67). -/
def execDebFall0 (i : Channel) (s : State) : Result := .next (debFall0 i s)
/-- DEB.FALL1 (R68). -/
def execDebFall1 (i : Channel) (s : State) : Result := .next (debFall1 i s)
/-- DEB.DOWN1 (R69). -/
def execDebDown1 (i : Channel) (s : State) : Result := .next (debDown1 i s)
/-- DEB.DOWN0 (R70). -/
def execDebDown0 (i : Channel) (s : State) : Result := .next (debDown0 i s)
/-- DEB.RISE1 (R71). -/
def execDebRise1 (i : Channel) (s : State) : Result := .next (debRise1 i s)
/-- DEB.RISE0 (R72). -/
def execDebRise0 (i : Channel) (s : State) : Result := .next (debRise0 i s)
/-- POLL (R73). -/
def execPoll (s : State) : Result := .next (pollPass s)

end Sys2Proof.Machine
end

