-- ==== Sys2Proof/Machine/Gates.lean ====
section
/-! DEFINITION. The two timing gates (spec/40 R60, R61): the poll gate with its poll, and the phase gate with the periodic
action of each phase (spec/42 R79 to R83). When a gate fires its mark becomes `now` (R62). -/

namespace Sys2Proof.Machine

/-- The poll step: if Gate(tD, t) then tD <- now and Poll() (R60, R78(1)). -/
def pollStep (t : Nat) (s : State) : State := if s.gate s.tD t then pollPass s.markPoll else s

/-- Idle: light a random LED (R79). -/
def idleAction (s : State) : Result := withRnd s fun r => ledOne r s

/-- GameOn: the next all-LED toggle, or entry to Give when all are done (R80). -/
def gameOnAction (s : State) : Result :=
  if s.cnt < s.params.nGameOnToggles then
    .next ((if toggleBit s.cnt then ledOff s else ledAll s).setCnt (s.cnt + 1))
  else
    withRnd s fun r => (ledOff ((s.setCnt 0).setTarget r)).clearGivenOnGive.setPhase .give

/-- Give: light the mole and enter Receive (R81). -/
def giveAction (s : State) : Result :=
  .next ((((ledOne s.target s).setGiven true).setHit false).setPhase .receive)

/-- Receive: the timeout exit (R82). -/
def receiveAction (s : State) : Result := .next (((ledOff s).setGiven false).setPhase .lost)

/-- Lost: the next target toggle, or the return to Idle when all are done (R83). -/
def lostAction (s : State) : Result :=
  if s.cnt < s.params.nLostToggles then
    .next ((if toggleBit s.cnt then ledOff s else ledOne s.target s).setCnt (s.cnt + 1))
  else
    .next ((ledOff (s.setCnt 0).markPoll).setPhase .idle)

/-- The periodic action of a phase. -/
def phaseAction (p : Phase) (s : State) : Result :=
  match p with
  | .idle => idleAction s
  | .gameOn => gameOnAction s
  | .give => giveAction s
  | .receive => receiveAction s
  | .lost => lostAction s

/-- The handler's guard on the phase gate: the phase is still the handler's (R78), and in Receive no hit stands,
the gate being the else branch of the hit exit (R82). -/
def phaseGuard (p : Phase) (s : State) : Bool :=
  decide (s.phase = p.code) && (decide (p ≠ .receive) || !s.hit)

/-- The phase gate of phase `p`: if guard and Gate(tP, T_action(p)) then tP <- now and the action (R61). -/
def phaseGate (p : Phase) (s : State) : Result :=
  if phaseGuard p s && s.gate s.tP (tAction s.params p) then phaseAction p s.markPhase else .next s

/-- GATE.POLL (R60), the threshold being that of the phase as it stands; an illegal phase has none (log 10). -/
def execGatePoll (s : State) : Result :=
  match phaseOf s.phase with
  | some p => .next (pollStep (tPoll s.params p) s)
  | none => .refused (.illegalPhase s.phase)

/-- GATE.PHASE (R61), for the phase as it stands; an illegal phase has no action (log 10). -/
def execGatePhase (s : State) : Result :=
  match phaseOf s.phase with
  | some p => phaseGate p s
  | none => .refused (.illegalPhase s.phase)

end Sys2Proof.Machine
end

