-- ==== Sys2Proof/Machine/Handlers.lean ====
section
/-! DEFINITION. The phase handlers (spec/42 R79 to R84): the poll step, then the phase step under its guard (R78), and
TICK (R77), which dispatches on the phase at the start of the tick. -/

namespace Sys2Proof.Machine

/-- PH.IDLE (R79). -/
def execPhIdle (s : State) : Result := phaseGate .idle (pollStep s.params.tPollIdle s)
/-- PH.GAMEON (R80). -/
def execPhGameOn (s : State) : Result := phaseGate .gameOn (pollStep s.params.tPollGameOn s)
/-- PH.GIVE (R81). -/
def execPhGive (s : State) : Result := phaseGate .give (pollStep s.params.tPollActive s)

/-- The Receive hit exit: no gate, no mark (R82). -/
def hitExit (s : State) : State := (ledOff s).setPhase .gameOn

/-- PH.RECEIVE's phase step: the hit exit comes before the timeout (R82, R90(4)). -/
def receiveStep (s : State) : Result :=
  if s.phase = Phase.receive.code then
    if s.hit then .next (hitExit s) else phaseGate .receive s
  else .next s

/-- PH.RECEIVE (R82). -/
def execPhReceive (s : State) : Result := receiveStep (pollStep s.params.tPollActive s)
/-- PH.LOST (R83). -/
def execPhLost (s : State) : Result := phaseGate .lost (pollStep s.params.tPollLost s)

/-- PH.ILLEGAL at code 101 (R84): `refuse IllegalPhase(s.phase)`. -/
def execPhIllegal101 (s : State) : Result := .refused (.illegalPhase s.phase)
/-- PH.ILLEGAL at code 110 (R84). -/
def execPhIllegal110 (s : State) : Result := .refused (.illegalPhase s.phase)
/-- PH.ILLEGAL at code 111 (R84). -/
def execPhIllegal111 (s : State) : Result := .refused (.illegalPhase s.phase)

/-- The handler of the phase at the start of the tick (R77). -/
def handler (s : State) : Result :=
  match s.phase.toNat with
  | 0 => execPhIdle s
  | 1 => execPhGameOn s
  | 2 => execPhGive s
  | 3 => execPhReceive s
  | 4 => execPhLost s
  | 5 => execPhIllegal101 s
  | 6 => execPhIllegal110 s
  | _ => execPhIllegal111 s

/-- TICK (R77): a bad parameter set is refused before any tick (R7, R105, log 5); `rst` comes before the phase. -/
def execTick (s : State) : Result :=
  match checkParams s.params with
  | some n => .refused (.badParameter n)
  | none => if s.rst then .next s.resetRegs else handler s

end Sys2Proof.Machine
end

