-- ==== Sys2Proof/Machine/Dispatch.lean ====
section
/-! DEFINITION. exec: one arm per operation, each one call of its meaning. -/

namespace Sys2Proof.Machine

def exec (i : Instr) (s : State) : Host.Outcome State Fault Refusal :=
  match i with
  | .debDown0 c => Sys2Proof.Machine.execDebDown0 c s
  | .debDown1 c => Sys2Proof.Machine.execDebDown1 c s
  | .debUp0 c => Sys2Proof.Machine.execDebUp0 c s
  | .debUp1 c => Sys2Proof.Machine.execDebUp1 c s
  | .debFall0 c => Sys2Proof.Machine.execDebFall0 c s
  | .debFall1 c => Sys2Proof.Machine.execDebFall1 c s
  | .debRise0 c => Sys2Proof.Machine.execDebRise0 c s
  | .debRise1 c => Sys2Proof.Machine.execDebRise1 c s
  | .evtPress c => Sys2Proof.Machine.execEvtPress c s
  | .evtRelease c => Sys2Proof.Machine.execEvtRelease c s
  | .phIdle => Sys2Proof.Machine.execPhIdle s
  | .phGameOn => Sys2Proof.Machine.execPhGameOn s
  | .phGive => Sys2Proof.Machine.execPhGive s
  | .phReceive => Sys2Proof.Machine.execPhReceive s
  | .phLost => Sys2Proof.Machine.execPhLost s
  | .phIllegal101 => Sys2Proof.Machine.execPhIllegal101 s
  | .phIllegal110 => Sys2Proof.Machine.execPhIllegal110 s
  | .phIllegal111 => Sys2Proof.Machine.execPhIllegal111 s
  | .gatePoll => Sys2Proof.Machine.execGatePoll s
  | .gatePhase => Sys2Proof.Machine.execGatePhase s
  | .muxHold => Sys2Proof.Machine.execMuxHold s
  | .muxOff => Sys2Proof.Machine.execMuxOff s
  | .muxAll => Sys2Proof.Machine.execMuxAll s
  | .muxRsvd => Sys2Proof.Machine.execMuxRsvd s
  | .muxOne idx => Sys2Proof.Machine.execMuxOne idx s
  | .tick => Sys2Proof.Machine.execTick s
  | .poll => Sys2Proof.Machine.execPoll s

end Sys2Proof.Machine
end

