-- ==== Sys2Proof/Machine/Fetch.lean ====
section
/-! DEFINITION. Around TICK: what a step does after it, and how the host presents one phase key as the next instruction. -/

namespace Sys2Proof.Machine

/-- A step is a tick whose inputs are then used up; a refusal stays one (R105). -/
def afterTick (r : Result) : Result :=
  match r with
  | .next t => .next t.advance
  | .fault f => .fault f
  | .refused f => .refused f

/-- A tick line with no reset: nothing pressed, `now` 0, `rnd` 0. -/
def quietLine : TickLine := ⟨0, 0b1111#4, some 0, false⟩

/-- The next tick's inputs with `rst` at 0, the rest as they stand; a quiet line where no line is loaded. -/
def noReset (p : List TickLine) : List TickLine :=
  match p with
  | [] => [quietLine]
  | l :: ls => { l with rst := false } :: ls

/-- The PH key `w` placed where the next tick reads its key, the `phase` register, on a tick that does not reset
(R77, log 1). -/
def placePhaseKey (s : State) (w : Nat) : State :=
  { s with phase := BitVec.ofNat 3 w, stim := noReset s.stim }

end Sys2Proof.Machine
end

