-- ==== Sys2Proof/Machine/Step.lean ====
section
/-! DEFINITION. One step of the machine: one clock edge (spec/10 R16), with the host's `withFetchWord`. -/

namespace Sys2Proof.Machine

/-- One tick of the block, after which the next input sample stands at the ports. -/
def step (s : State) : Host.Outcome State Fault Refusal := afterTick (exec .tick s)

/-- `s` with the key `w` in the `phase` register, the key a tick dispatches on, and a next tick that does not reset. -/
def State.withFetchWord (s : State) (_nbits w : Nat) : State := placePhaseKey s w

end Sys2Proof.Machine
end

