-- ==== Sys2Proof/Machine/Ports.lean ====
section
/-! DEFINITION. The output ports (spec/10 R34): each equals its register at all times and changes no behaviour. -/

namespace Sys2Proof.Machine

/-- `led[3:0]`, bit i lighting LED i (R25, R37). -/
def State.ledPort (s : State) : BitVec 4 := s.led
/-- `phase_o[2:0]`. -/
def State.phaseO (s : State) : BitVec 3 := s.phase
/-- `deb_o[7:0] = {deb[3], deb[2], deb[1], deb[0]}`. -/
def State.debO (s : State) : BitVec 8 :=
  (s.deb.get 3).code ++ ((s.deb.get 2).code ++ ((s.deb.get 1).code ++ (s.deb.get 0).code))
/-- `target_o[1:0]`. -/
def State.targetO (s : State) : BitVec 2 := channelBits s.target
/-- `given_o`. -/
def State.givenO (s : State) : BitVec 1 := BitVec.ofBool s.given
/-- `hit_o`. -/
def State.hitO (s : State) : BitVec 1 := BitVec.ofBool s.hit
/-- `cnt_o[W_CNT-1:0]`. -/
def State.cntO (s : State) : BitVec s.params.wCnt := BitVec.ofNat _ s.cnt
/-- `tD_o[W_MS-1:0]`. -/
def State.tDO (s : State) : BitVec s.params.wMs := BitVec.ofNat _ s.tD
/-- `tP_o[W_MS-1:0]`. -/
def State.tPO (s : State) : BitVec s.params.wMs := BitVec.ofNat _ s.tP

end Sys2Proof.Machine
end

