-- ==== Sys2Proof/Machine/Stimulus.lean ====
section
/-! DEFINITION. Stimulus programs: the per-tick input word IN (spec/30 R56) and the line grammar (R57), read and written. A
line is a list of characters. -/

namespace Sys2Proof.Machine

/-- `IN[5:0] = {btn_n[3:0], rnd[1:0]}`; a line that omits `rnd` carries 00 there (R56, spec/95 notation). -/
def inWord (l : TickLine) : BitVec 6 := l.btnN ++ channelBits (l.rnd.getD 0)

/-- The line an input word stands for at a given `now`, with no reset (R56). -/
def lineOfWord (now : Nat) (w : BitVec 6) : TickLine :=
  ⟨now, w.extractLsb' 2 4, some (channelOfBits (w.extractLsb' 0 2)), false⟩

/-- Why a line is no stimulus line. -/
inductive StimError where
  /-- The text does not follow the grammar of R57. -/
  | badForm
  /-- `now` is not in `0 .. 2^W_MS - 1` (R57). -/
  | nowTooWide
deriving DecidableEq, Repr

/-- The value of a decimal digit. -/
def digitValue (c : Char) : Option Nat :=
  if '0'.toNat ≤ c.toNat ∧ c.toNat ≤ '9'.toNat then some (c.toNat - '0'.toNat) else none

/-- Digits as long as there are any, onto the number read so far. -/
def readDigits (acc : Nat) (cs : List Char) : Nat × List Char :=
  match cs with
  | [] => (acc, [])
  | c :: rest =>
    match digitValue c with
    | some d => readDigits (acc * 10 + d) rest
    | none => (acc, c :: rest)

/-- A decimal number of at least one digit. -/
def readNumber (cs : List Char) : Option (Nat × List Char) :=
  match cs with
  | [] => none
  | c :: rest => (digitValue c).map fun d => readDigits d rest

/-- The given characters, one after the other. -/
def readExactly (word cs : List Char) : Option (List Char) :=
  match word, cs with
  | [], cs => some cs
  | _ :: _, [] => none
  | w :: ws, c :: rest => if w = c then readExactly ws rest else none

/-- One bit, `0` or `1`. -/
def readBit (cs : List Char) : Option (Bool × List Char) :=
  match cs with
  | [] => none
  | c :: rest => if c = '1' then some (true, rest) else if c = '0' then some (false, rest) else none

/-- The four bits `b3 b2 b1 b0` (R57). -/
def readButtons (cs : List Char) : Option (BitVec 4 × List Char) :=
  (readBit cs).bind fun (b3, cs) =>
  (readBit cs).bind fun (b2, cs) =>
  (readBit cs).bind fun (b1, cs) =>
  (readBit cs).map fun (b0, cs) =>
    (BitVec.ofBool b3 ++ BitVec.ofBool b2 ++ BitVec.ofBool b1 ++ BitVec.ofBool b0, cs)

/-- The fixed pieces of the grammar. -/
def btnTag : List Char := [' ', 'b', 't', 'n', '=']
/-- ` rnd=`. -/
def rndTag : List Char := [' ', 'r', 'n', 'd', '=']
/-- ` rst`. -/
def rstTag : List Char := [' ', 'r', 's', 't']

/-- The optional ` rnd=r`, r one of 0..3 (R57). -/
def readRnd (cs : List Char) : Option (Option Channel × List Char) :=
  match readExactly rndTag cs with
  | none => some (none, cs)
  | some [] => none
  | some (c :: rest) =>
    (digitValue c).bind fun d => if h : d < 4 then some (some ⟨d, h⟩, rest) else none

/-- The optional ` rst`, at the end of the line (R57). -/
def readRst (cs : List Char) : Option Bool :=
  match cs with
  | [] => some false
  | _ :: _ => if cs = rstTag then some true else none

/-- The form of a line, whatever the width of its `now` (R57). -/
def readForm (cs : List Char) : Option TickLine :=
  (readExactly ['@'] cs).bind fun cs =>
  (readNumber cs).bind fun (now, cs) =>
  (readExactly btnTag cs).bind fun cs =>
  (readButtons cs).bind fun (btn, cs) =>
  (readRnd cs).bind fun (rnd, cs) =>
  (readRst cs).map fun rst => ⟨now, btn, rnd, rst⟩

/-- One stimulus line (R57), for a block built with the parameters `p`. -/
def readLine (p : Params) (cs : List Char) : Except StimError TickLine :=
  match readForm cs with
  | none => .error .badForm
  | some l => if l.wf p then .ok l else .error .nowTooWide

/-- A stimulus program: one line per tick (R56). -/
def readProgram (p : Params) (lines : List (List Char)) : Except StimError (List TickLine) :=
  match lines with
  | [] => .ok []
  | l :: ls =>
    match readLine p l with
    | .error e => .error e
    | .ok t =>
      match readProgram p ls with
      | .error e => .error e
      | .ok ts => .ok (t :: ts)

/-- The character of one decimal digit. -/
def digitChar (d : Nat) : Char := Char.ofNat ('0'.toNat + d)

/-- A number in decimal; `fuel` above the number is always enough. -/
def showDigits (fuel n : Nat) : List Char :=
  match fuel with
  | 0 => []
  | fuel + 1 => if n < 10 then [digitChar n] else showDigits fuel (n / 10) ++ [digitChar (n % 10)]

/-- One bit. -/
def showBit (b : Bool) : Char := if b then '1' else '0'

/-- The ` rnd=r` of a line that gives `rnd`. -/
def showRnd (r : Option Channel) : List Char :=
  match r with
  | none => []
  | some c => rndTag ++ [digitChar c.val]

/-- A line in the syntax of R57. -/
def showLine (l : TickLine) : List Char :=
  '@' :: showDigits (l.now + 1) l.now ++ btnTag
    ++ [showBit (l.btnN.getLsbD 3), showBit (l.btnN.getLsbD 2), showBit (l.btnN.getLsbD 1), showBit (l.btnN.getLsbD 0)]
    ++ showRnd l.rnd ++ (if l.rst then rstTag else [])

end Sys2Proof.Machine
end

