-- ==== Sys2Proof/Safety.lean ====
section
/-! DEFINITION. What counts as a good state of the block (spec/42 R88, R89, spec/10 section 2) and the few relations between
states that claims are stated with. -/

namespace Sys2Proof.Machine

/-- The parameters and the inputs still to come are the same: no operation of the block writes them (R28, R43). -/
structure SameOutside (s t : State) : Prop where
  params : t.params = s.params
  stim : t.stim = s.stim
  ticks : t.ticks = s.ticks

/-- The phase register holds one of the five named phases (R48, R49). -/
def State.LegalPhase (s : State) : Prop := ∃ p : Phase, s.phase = p.code

/-- The tick's input line gives `rnd` (R57). -/
def State.RndGiven (s : State) : Prop := ∃ r, s.input.rnd = some r

/-- The values the LED port may show: all off, all on, or exactly one LED (R88). -/
def LedLegal (v : BitVec 4) : Prop := v = 0b0000#4 ∨ v = 0b1111#4 ∨ ∃ j, v = onehot j

/-- The numeric registers hold values of their widths (spec/10 section 2). -/
structure RegistersFit (s : State) : Prop where
  cnt : s.cnt < 2 ^ s.params.wCnt
  tD : s.tD < 2 ^ s.params.wMs
  tP : s.tP < 2 ^ s.params.wMs

/-- The per-phase invariants of R89 with the LED invariant of R88, for a block with valid parameters. -/
structure GameInv (s : State) : Prop where
  params : s.params.wf = true
  fit : RegistersFit s
  legal : s.LegalPhase
  idle : s.phase = Phase.idle.code → s.cnt = 0 ∧ (s.led = 0b0000#4 ∨ ∃ j, s.led = onehot j)
  gameOn : s.phase = Phase.gameOn.code → s.cnt ≤ s.params.nGameOnToggles ∧ LedLegal s.led
  give : s.phase = Phase.give.code →
    s.led = 0b0000#4 ∧ s.cnt = 0 ∧ (s.params.givenClearOnGive = true → s.given = false)
  receive : s.phase = Phase.receive.code →
    s.led = onehot s.target ∧ s.given = true ∧ s.hit = false ∧ s.cnt = 0
  lost : s.phase = Phase.lost.code →
    (s.led = 0b0000#4 ∨ s.led = onehot s.target) ∧ s.cnt ≤ s.params.nLostToggles

/-- A channel whose next evaluated sample raises PRESS: Falling and pressed (R67). -/
def State.pressDue (s : State) (c : Channel) : Prop := s.deb.get c = .falling ∧ s.btn c = false

/-- A channel whose next evaluated sample raises RELEASE: Down and released (R69). -/
def State.releaseDue (s : State) (c : Channel) : Prop := s.deb.get c = .down ∧ s.btn c = true

/-- The states in which successive polls find one channel: from each to the next the channel's register is what a poll
left, whatever else happened in between (R64). -/
def PollTrace (c : Channel) : List State → Prop
  | a :: b :: rest => (∃ m, exec .poll a = .next m ∧ b.deb.get c = m.deb.get c) ∧ PollTrace c (b :: rest)
  | _ => True

end Sys2Proof.Machine
end

