-- ==== Sys2Proof/Certificates/Slice0/Obligations.lean ====
section
/-! DEFINITION. The statements for the provers. Rules are those of spec/; "decision D<n>" names an entry of
spec/92_eei_decisions.md, the spec's own choice that a rule carries. -/

open Sys2Proof Sys2Proof.Machine

/-! ## Keys and decoding -/

/-- R46 to R53: the encoder and the decoder agree. Every key word of an operation reads back as that operation; every
well-formed key word selects one operation, whose key word it is; a word wider than its key is rejected by name. -/
def Obligations.KeysReadBackAsTheirOperation : Prop :=
  (∀ i : Instr, i.keyed = true → ∃ k, encode i = some k ∧ k.wf = true ∧ decodeWord k = .ok i) ∧
  (∀ k : KeyWord, k.wf = true → ∃ i, decodeWord k = .ok i ∧ encode i = some k) ∧
  (∀ k : KeyWord, 2 ^ k.fmt.width ≤ k.bits → decodeWord k = .error (.keyTooWide k.fmt k.bits))

/-- R50 to R53 and R48: one word of every format, written out from the tables. -/
def Obligations.TableWordsDecode : Prop :=
  decodeWord ⟨.deb, 2, 0b100⟩ = .ok (.debFall0 2) ∧ decodeWord ⟨.deb, 3, 0b001⟩ = .ok (.debDown1 3) ∧
  decodeWord ⟨.evt, 1, 0b1⟩ = .ok (.evtRelease 1) ∧ decodeWord ⟨.ph, 0, 0b011⟩ = .ok .phReceive ∧
  decodeWord ⟨.gate, 0, 0b0⟩ = .ok .gatePoll ∧ decodeWord ⟨.mux, 0, 0b110⟩ = .ok (.muxOne 2) ∧
  decodeWord ⟨.mux, 0, 0b010⟩ = .ok .muxAll

/-- R56: the input word IN = {btn_n, rnd} of a line that gives `rnd` and does not reset reads back as the line, and
every word is the word of the line it stands for. -/
def Obligations.InputWordReadsBack : Prop :=
  (∀ (l : TickLine) (r : Channel), l.rnd = some r → l.rst = false → lineOfWord l.now (inWord l) = l) ∧
  (∀ (n : Nat) (w : BitVec 6), inWord (lineOfWord n w) = w)

/-- R57: a well-formed line written in the stimulus syntax reads back as itself, for every width of `now`. -/
def Obligations.StimulusLineReadsBack : Prop :=
  ∀ (p : Params) (l : TickLine), l.wf p = true → readLine p (showLine l) = .ok l

/-! ## The tick -/

/-- R77: one step is one tick. With valid parameters and no reset it is exec of the operation that the phase register's
key selects, after which the tick's inputs are used up (the model's own `stim` and `ticks`, log 2). -/
def Obligations.StepRunsTheDecodedHandler : Prop :=
  ∀ (s : State) (i : Instr), s.params.wf = true → s.rst = false →
    decodeWord ⟨.ph, 0, s.phase.toNat⟩ = .ok i →
    step s = match exec i s with
      | .next t => .next { t with stim := s.stim.tail, ticks := s.ticks + 1 }
      | .fault f => .fault f
      | .refused r => .refused r

/-- R77: TICK answers a next state whenever the parameters are valid and either it resets, or the phase is one of the five
and its line gives `rnd`; without a reset that state is the one the selected handler leaves. -/
def Obligations.TickCompletes : Prop :=
  ∀ s : State, s.params.wf = true → (s.rst = true ∨ (s.LegalPhase ∧ s.RndGiven)) →
    ∃ t, exec .tick s = .next t ∧ SameOutside s t ∧
      (s.rst = false → exec (decodePh s.phase) s = .next t)

/-- R117: a tick with `rst` = 1 loads RESET_STATE and does nothing else, in every state, an illegal phase among them, and
whether or not the line gives `rnd` (the values other than `deb` are decision D19). -/
def Obligations.ResetTickLoadsResetState : Prop :=
  ∀ s : State, s.params.wf = true → s.rst = true →
    ∃ t, exec .tick s = .next t ∧ (∀ c, t.deb.get c = .up) ∧ t.phase = 0b000#3 ∧ t.target = 0 ∧ t.given = false ∧
      t.hit = false ∧ t.cnt = 0 ∧ t.tD = 0 ∧ t.tP = 0 ∧ t.led = 0b0000#4 ∧ SameOutside s t

/-- R117, R7: the machine right after reset holds the values of R117 and is built with valid parameters. -/
def Obligations.ResetStateHoldsTheResetTable : Prop :=
  (∀ c, State.reset.deb.get c = .up) ∧ State.reset.phase = 0b000#3 ∧ State.reset.target = 0 ∧
  State.reset.given = false ∧ State.reset.hit = false ∧ State.reset.cnt = 0 ∧ State.reset.tD = 0 ∧
  State.reset.tP = 0 ∧ State.reset.led = 0b0000#4 ∧ State.reset.params = Params.default ∧
  State.reset.params.wf = true

/-- R38, R28: every step uses exactly one input sample and leaves the parameters alone (`stim` and `ticks` are the
model's own, log 2). -/
def Obligations.StepUsesOneInputSample : Prop :=
  ∀ s t : State, step s = .next t → t.stim = s.stim.tail ∧ t.ticks = s.ticks + 1 ∧ t.params = s.params

/-- R28, R43: no operation writes the parameters or the inputs. -/
def Obligations.NoOperationWritesParametersOrInputs : Prop :=
  ∀ (i : Instr) (s t : State), exec i s = .next t → SameOutside s t

/-! ## Refusals -/

/-- R84: the three illegal phase codes are refused with the code: each PH.ILLEGAL row in the phase that is its key, and,
with valid parameters and no reset, the tick that starts with one. No register is written. -/
def Obligations.IllegalPhaseIsRefused : Prop :=
  (∀ s : State, (s.phase = 0b101#3 → exec .phIllegal101 s = .refused (.illegalPhase 0b101#3)) ∧
    (s.phase = 0b110#3 → exec .phIllegal110 s = .refused (.illegalPhase 0b110#3)) ∧
    (s.phase = 0b111#3 → exec .phIllegal111 s = .refused (.illegalPhase 0b111#3))) ∧
  (∀ s : State, s.params.wf = true → s.rst = false →
    (s.phase = 0b101#3 ∨ s.phase = 0b110#3 ∨ s.phase = 0b111#3) →
    step s = .refused (.illegalPhase s.phase))

/-- R102: MUX select 011 is refused as ReservedMuxSelect in every state (decision D21). -/
def Obligations.ReservedMuxSelectIsRefused : Prop :=
  decodeWord ⟨.mux, 0, 0b011⟩ = .ok .muxRsvd ∧ ∀ s : State, exec .muxRsvd s = .refused .reservedMuxSelect

/-- R7, R105: a tick is refused with BadParameter exactly when a constraint of R7 is broken, and the name it carries is
that of a parameter whose own constraint is broken (which one is named first is the model's choice, log 5). -/
def Obligations.BadParametersAreRefused : Prop :=
  ∀ s : State,
    let p := s.params
    let broken : ParamName → Prop := fun n =>
      match n with
      | .wMs => ¬ 1 ≤ p.wMs
      | .tIdleBlink => ¬ p.tIdleBlink < 2 ^ p.wMs
      | .tPollIdle => ¬ p.tPollIdle < 2 ^ p.wMs
      | .tPollActive => ¬ p.tPollActive < 2 ^ p.wMs
      | .tPollGameOn => ¬ p.tPollGameOn < 2 ^ p.wMs
      | .tPollLost => ¬ p.tPollLost < 2 ^ p.wMs
      | .tGameOnToggle => ¬ p.tGameOnToggle < 2 ^ p.wMs
      | .tGiveWait => ¬ p.tGiveWait < 2 ^ p.wMs
      | .tReceiveTimeout => ¬ p.tReceiveTimeout < 2 ^ p.wMs
      | .tLostToggle => ¬ p.tLostToggle < 2 ^ p.wMs
      | .wCnt => ¬ 1 ≤ p.wCnt
      | .nGameOnToggles => ¬ p.nGameOnToggles < 2 ^ p.wCnt
      | .nLostToggles => ¬ p.nLostToggles < 2 ^ p.wCnt
    ((∃ n, broken n) → ∃ n, broken n ∧ step s = .refused (.badParameter n)) ∧
    (∀ n, step s = .refused (.badParameter n) → broken n)

/-- R105, R96: from every state that meets the game invariant, a tick whose line gives `rnd` goes on: none of the refusals
is reached. -/
def Obligations.GoodStatesNeverStop : Prop :=
  ∀ s : State, GameInv s → s.RndGiven → ∃ t, step s = .next t ∧ GameInv t

/-! ## LED mux -/

/-- R98 to R101: HOLD writes nothing; OFF, ALL and ONE(idx) write 0000, 1111 and the mask of idx to `led` and nothing
else. -/
def Obligations.MuxCommandsWriteOnlyLed : Prop :=
  ∀ (s : State) (idx : Channel),
    exec .muxHold s = .next s ∧
    exec .muxOff s = .next { s with led := 0b0000#4 } ∧
    exec .muxAll s = .next { s with led := 0b1111#4 } ∧
    ∃ t, exec (.muxOne idx) s = .next t ∧ t = { s with led := t.led } ∧
      ∀ j : Channel, t.led.getLsbD j.val = decide (j = idx)

/-! ## Debounce machine -/

/-- R65, R66, R68, R70, R71, R72: in the state that their key names, the six transitions without an event write the
channel's register and nothing else. -/
def Obligations.DebounceTransitionsWithoutEvent : Prop :=
  ∀ (c : Channel) (s : State) (i : Instr) (d v : DebState),
    (i, d, v) ∈ [(Instr.debUp0 c, DebState.up, DebState.falling), (.debUp1 c, .up, .up), (.debFall1 c, .falling, .up),
      (.debDown0 c, .down, .down), (.debRise1 c, .rising, .up), (.debRise0 c, .rising, .down)] →
    s.deb.get c = d →
    ∃ t, exec i s = .next t ∧ t.deb.get c = v ∧ (∀ j, j ≠ c → t.deb.get j = s.deb.get j) ∧
      t = { s with deb := t.deb }

/-- R66, R70: in the state their key selects them in, UP1 and DOWN0 change nothing at all (decision D9). -/
def Obligations.StableSamplesChangeNothing : Prop :=
  ∀ (c : Channel) (s : State),
    (s.deb.get c = .up → exec (.debUp1 c) s = .next s) ∧ (s.deb.get c = .down → exec (.debDown0 c) s = .next s)

/-- The model's reading of a debounce operation executed in a state its key does not name (log 9; the spec selects by key
only): the rule's writes are the same whatever the channel's register held. That it goes on in an illegal phase too is
the model's reading, log 15. -/
def Obligations.DebounceRowsActAlikeInEveryDebounceState : Prop :=
  ∀ (c : Channel) (s : State) (d : DebState) (i : Instr),
    i ∈ [Instr.debDown0 c, .debDown1 c, .debUp0 c, .debUp1 c, .debFall0 c, .debFall1 c, .debRise0 c, .debRise1 c] →
    exec i { s with deb := s.deb.set c d } = exec i s ∧ ∃ t, exec i s = .next t

/-- R67 with R85: at Falling, DEB.FALL0 sets the channel to Down and raises PRESS, which starts a round in Idle and does nothing in
the four other phases (for an illegal phase see EventsHaveNoEffectInAnIllegalPhase). -/
def Obligations.ConfirmedPressGoesDownAndRaisesPress : Prop :=
  ∀ (c : Channel) (s : State), s.LegalPhase → s.deb.get c = .falling →
    ∃ t, exec (.debFall0 c) s = .next t ∧ t.deb.get c = .down ∧ (∀ j, j ≠ c → t.deb.get j = s.deb.get j) ∧
      (s.phase = 0b000#3 → t = { s with deb := t.deb, phase := 0b001#3, cnt := 0, tP := s.now }) ∧
      (s.phase ≠ 0b000#3 → t = { s with deb := t.deb })

/-- R69 with R86: at Down, DEB.DOWN1 sets the channel to Rising and raises RELEASE, which makes the gameplay comparisons (for an illegal
phase see EventsHaveNoEffectInAnIllegalPhase). -/
def Obligations.FirstReleasedSampleRaisesRelease : Prop :=
  ∀ (c : Channel) (s : State), s.LegalPhase → s.deb.get c = .down →
    ∃ t, exec (.debDown1 c) s = .next t ∧ t.deb.get c = .rising ∧ (∀ j, j ≠ c → t.deb.get j = s.deb.get j) ∧
      exec (.evtRelease c) { s with deb := t.deb } = .next t ∧
      t = { s with deb := t.deb, phase := t.phase, hit := t.hit, led := t.led }

/-- R85: PRESS in Idle starts a round (phase GameOn, cnt 0, tP now; decision D16) and has no effect in the four
other phases (for an illegal phase see EventsHaveNoEffectInAnIllegalPhase). -/
def Obligations.PressStartsARoundOnlyInIdle : Prop :=
  ∀ (c : Channel) (s : State), s.LegalPhase →
    (s.phase = 0b000#3 →
      exec (.evtPress c) s = .next { s with phase := 0b001#3, cnt := 0, tP := s.now }) ∧
    (s.phase ≠ 0b000#3 → exec (.evtPress c) s = .next s)

/-- R86: RELEASE in Give before the mole is given, in Receive before a hit on the lit channel and on another one, and in
every other state of the five phases (decisions D17, D18, D28; for an illegal phase see
EventsHaveNoEffectInAnIllegalPhase). -/
def Obligations.ReleaseMakesTheGameplayComparisons : Prop :=
  ∀ (c : Channel) (s : State), s.LegalPhase →
    (s.phase = 0b010#3 ∧ s.given = false → exec (.evtRelease c) s = .next { s with phase := 0b100#3 }) ∧
    (s.phase = 0b011#3 ∧ s.hit = false ∧ s.led = onehot c → exec (.evtRelease c) s = .next { s with hit := true }) ∧
    (s.phase = 0b011#3 ∧ s.hit = false ∧ s.led ≠ onehot c →
      exec (.evtRelease c) s = .next { s with hit := false, led := 0b0000#4, phase := 0b100#3 }) ∧
    (¬ (s.phase = 0b010#3 ∧ s.given = false) ∧ ¬ (s.phase = 0b011#3 ∧ s.hit = false) →
      exec (.evtRelease c) s = .next s)

/-- R73, R50: POLL executes, for the channels 0, 1, 2, 3 in this order, the operation that the channel's key
{deb[i], btn_n[i]} selects, each in the state the one before left (decision D10; for an illegal phase see
EventsHaveNoEffectInAnIllegalPhase). -/
def Obligations.PollRunsTheSelectedRulesInOrder : Prop :=
  ∀ s : State, s.LegalPhase → ∃ (i0 i1 i2 i3 : Instr) (s1 s2 s3 t : State),
    decodeWord ⟨.deb, 0, (debKey (s.deb.get 0) (s.btn 0)).toNat⟩ = .ok i0 ∧ exec i0 s = .next s1 ∧
    decodeWord ⟨.deb, 1, (debKey (s1.deb.get 1) (s.btn 1)).toNat⟩ = .ok i1 ∧ exec i1 s1 = .next s2 ∧
    decodeWord ⟨.deb, 2, (debKey (s2.deb.get 2) (s.btn 2)).toNat⟩ = .ok i2 ∧ exec i2 s2 = .next s3 ∧
    decodeWord ⟨.deb, 3, (debKey (s3.deb.get 3) (s.btn 3)).toNat⟩ = .ok i3 ∧ exec i3 s3 = .next t ∧
    exec .poll s = .next t

/-- R76, with the table of R65 to R72: after a poll each channel's register is a function of that channel's own register
and sample, whatever the game state of the five phases; a poll never writes `target`, `given` or `tD` (for an illegal
phase see EventsHaveNoEffectInAnIllegalPhase). -/
def Obligations.PollMovesEachChannelByItsOwnSample : Prop :=
  ∀ s : State, s.LegalPhase → ∃ t, exec .poll s = .next t ∧
    (∀ c, t.deb.get c = match s.deb.get c, s.btn c with
      | .up, false => .falling
      | .up, true => .up
      | .falling, false => .down
      | .falling, true => .up
      | .down, true => .rising
      | .down, false => .down
      | .rising, true => .up
      | .rising, false => .down) ∧
    t.target = s.target ∧ t.given = s.given ∧ t.tD = s.tD ∧ SameOutside s t

/-- R64: a tick without reset whose poll gate is closed changes no debounce register. -/
def Obligations.DebounceRegistersMoveOnlyInAPoll : Prop :=
  ∀ (s t : State) (p : Phase), s.phase = p.code → s.rst = false → s.elapsed s.tD < tPoll s.params p →
    exec .tick s = .next t → t.deb = s.deb

/-- R32, R125: on a tick without reset whose poll gate is closed the button port is not read: any other value of
`btn_n` on the tick's line gives the same outcome. -/
def Obligations.ButtonsAreReadOnlyInAPoll : Prop :=
  ∀ (s t : State) (p : Phase) (l : TickLine) (ls : List TickLine) (b : BitVec 4),
    s.stim = l :: ls → s.phase = p.code → s.rst = false → s.elapsed s.tD < tPoll s.params p →
    exec .tick s = .next t →
    exec .tick { s with stim := { l with btnN := b } :: ls } = .next { t with stim := { l with btnN := b } :: ls }

/-- R75(c): a channel stands at Falling after a poll only if that poll's sample was pressed and the channel was Up: so a
PRESS needs the pressed sample of the poll before too. -/
def Obligations.PressNeedsTwoPressedPolls : Prop :=
  ∀ (s m s2 : State) (c : Channel), exec .poll s = .next m → s2.deb.get c = m.deb.get c → s2.pressDue c →
    s.btn c = false ∧ s.deb.get c = .up

/-- R75(b): between two PRESS events of one channel there are two consecutive polls in which its sample was released. The
list is the states in which successive polls find the channel, from the first after a PRESS (the channel is Down) to
one whose poll raises the next. -/
def Obligations.TwoReleasedPollsBetweenPresses : Prop :=
  ∀ (c : Channel) (a z : State) (mid : List State),
    PollTrace c (a :: mid ++ [z]) → a.deb.get c = .down → z.pressDue c →
    ∃ (l1 l2 : List State) (x y : State), a :: mid = l1 ++ x :: y :: l2 ∧ x.btn c = true ∧ y.btn c = true

/-! ## Timing gates -/

/-- R59, R63: elapsed is the one W_MS-bit number that leads from the mark to now modulo 2^W_MS, and the gate is the exact
comparison with it; the corner cases of R59 (decision D5). -/
def Obligations.GateComparesTheElapsedTime : Prop :=
  ∀ (s : State) (mark t : Nat), mark < 2 ^ s.params.wMs →
    s.elapsed mark < 2 ^ s.params.wMs ∧ (mark + s.elapsed mark) % 2 ^ s.params.wMs = s.now ∧
    (∀ e, e < 2 ^ s.params.wMs → (mark + e) % 2 ^ s.params.wMs = s.now → e = s.elapsed mark) ∧
    (s.gate mark t = true ↔ t ≤ s.elapsed mark) ∧ s.gate mark 0 = true ∧
    (s.now = mark → (s.gate mark t = true ↔ t = 0)) ∧
    (s.now < mark → s.elapsed mark = 2 ^ s.params.wMs - (mark - s.now))

/-- R60, with the periods that R79 to R83 name: in each phase GATE.POLL writes tD and polls if at least the phase's period has elapsed
since tD, and does nothing otherwise. -/
def Obligations.PollGateMarksAndPolls : Prop :=
  ∀ (s : State) (p : Phase) (period : Nat), s.phase = p.code →
    period = (match p with
      | .idle => s.params.tPollIdle
      | .gameOn => s.params.tPollGameOn
      | .give => s.params.tPollActive
      | .receive => s.params.tPollActive
      | .lost => s.params.tPollLost) →
    (period ≤ s.elapsed s.tD →
      ∃ t, exec .gatePoll s = .next t ∧ exec .poll { s with tD := s.now } = .next t ∧ t.tD = s.now) ∧
    (s.elapsed s.tD < period → exec .gatePoll s = .next s)

/-- R61: in each phase GATE.PHASE writes tP and does the phase's periodic action if the guard holds and at least the
action's threshold has elapsed since tP, and does nothing otherwise. The actions are those of R79 to R83. -/
def Obligations.PhaseGateMarksAndActs : Prop :=
  ∀ s : State, s.params.wf = true →
    (s.phase = 0b000#3 →
      (s.params.tIdleBlink ≤ s.elapsed s.tP →
        ∀ r, s.input.rnd = some r → exec .gatePhase s = .next { s with tP := s.now, led := onehot r }) ∧
      (s.elapsed s.tP < s.params.tIdleBlink → exec .gatePhase s = .next s)) ∧
    (s.phase = 0b001#3 →
      (s.params.tGameOnToggle ≤ s.elapsed s.tP →
        (s.cnt < s.params.nGameOnToggles → exec .gatePhase s =
          .next { s with tP := s.now, led := (if s.cnt % 2 = 0 then 0b1111#4 else 0b0000#4), cnt := s.cnt + 1 }) ∧
        (¬ s.cnt < s.params.nGameOnToggles →
          ∀ r, s.input.rnd = some r → exec .gatePhase s =
            .next { s with tP := s.now, cnt := 0, target := r, led := 0b0000#4, phase := 0b010#3,
                           given := if s.params.givenClearOnGive then false else s.given })) ∧
      (s.elapsed s.tP < s.params.tGameOnToggle → exec .gatePhase s = .next s)) ∧
    (s.phase = 0b010#3 → exec .gatePhase s =
      if s.params.tGiveWait ≤ s.elapsed s.tP then
        .next { s with tP := s.now, led := onehot s.target, given := true, hit := false, phase := 0b011#3 }
      else .next s) ∧
    (s.phase = 0b011#3 → exec .gatePhase s =
      if s.hit = false ∧ s.params.tReceiveTimeout ≤ s.elapsed s.tP then
        .next { s with tP := s.now, led := 0b0000#4, given := false, phase := 0b100#3 }
      else .next s) ∧
    (s.phase = 0b100#3 → exec .gatePhase s =
      if s.params.tLostToggle ≤ s.elapsed s.tP then
        if s.cnt < s.params.nLostToggles then
          .next { s with tP := s.now, led := (if s.cnt % 2 = 0 then onehot s.target else 0b0000#4), cnt := s.cnt + 1 }
        else .next { s with tP := s.now, tD := s.now, cnt := 0, led := 0b0000#4, phase := 0b000#3 }
      else .next s)

/-- R49: in a state whose phase is illegal neither gate has a threshold, and both refuse it by its code (the model's
reading, log 10). -/
def Obligations.GatesRefuseAnIllegalPhase : Prop :=
  ∀ s : State, ¬ s.LegalPhase →
    exec .gatePoll s = .refused (.illegalPhase s.phase) ∧ exec .gatePhase s = .refused (.illegalPhase s.phase)

/-! ## Phase handlers. `s1` is the state the poll step leaves (R78(1)). -/

/-- R79: PH.IDLE: the poll step, then, if the phase is still Idle and the blink is due, the attract LED (decision D15; for a
line that omits `rnd` see OmittedRandomIsRefused). -/
def Obligations.IdleHandlerPollsThenBlinks : Prop :=
  ∀ s : State, s.phase = 0b000#3 →
    ∃ s1, exec .gatePoll s = .next s1 ∧
      (s1.phase = 0b000#3 ∧ s.params.tIdleBlink ≤ s1.elapsed s1.tP →
        ∀ r, s.input.rnd = some r → exec .phIdle s = .next { s1 with tP := s.now, led := onehot r }) ∧
      (¬ (s1.phase = 0b000#3 ∧ s.params.tIdleBlink ≤ s1.elapsed s1.tP) → exec .phIdle s = .next s1)

/-- R80: PH.GAMEON: the poll step, then, if a toggle is due, ALL or OFF by cnt[0] while cnt is below N, and else entry to
Give with a new target (decisions D13, D14, D17). -/
def Obligations.GameOnHandlerTogglesThenGives : Prop :=
  ∀ s : State, s.params.wf = true → s.phase = 0b001#3 →
    ∃ s1, exec .gatePoll s = .next s1 ∧ s1.phase = 0b001#3 ∧
      (s.params.tGameOnToggle ≤ s1.elapsed s1.tP →
        (s1.cnt < s.params.nGameOnToggles → exec .phGameOn s =
          .next { s1 with tP := s.now, cnt := s1.cnt + 1,
                          led := (if s1.cnt % 2 = 0 then 0b1111#4 else 0b0000#4) }) ∧
        (¬ s1.cnt < s.params.nGameOnToggles →
          ∀ r, s.input.rnd = some r → exec .phGameOn s =
            .next { s1 with tP := s.now, cnt := 0, target := r, led := 0b0000#4, phase := 0b010#3,
                            given := if s.params.givenClearOnGive then false else s1.given })) ∧
      (¬ s.params.tGameOnToggle ≤ s1.elapsed s1.tP → exec .phGameOn s = .next s1)

/-- R81: PH.GIVE: the poll step, then, if the phase is still Give and the wait is over, the mole is lit and Receive
entered (decision D11). -/
def Obligations.GiveHandlerPollsThenLightsTheMole : Prop :=
  ∀ s : State, s.phase = 0b010#3 →
    ∃ s1, exec .gatePoll s = .next s1 ∧
      (s1.phase = 0b010#3 ∧ s.params.tGiveWait ≤ s1.elapsed s1.tP → exec .phGive s =
        .next { s1 with tP := s.now, led := onehot s.target, given := true, hit := false, phase := 0b011#3 }) ∧
      (¬ (s1.phase = 0b010#3 ∧ s.params.tGiveWait ≤ s1.elapsed s1.tP) → exec .phGive s = .next s1)

/-- R82, R90(4): PH.RECEIVE: the poll step, then, if the phase is still Receive, the hit exit, or else the timeout exit if
it is due (decision D27). -/
def Obligations.ReceiveHandlerHitBeforeTimeout : Prop :=
  ∀ s : State, s.phase = 0b011#3 →
    ∃ s1, exec .gatePoll s = .next s1 ∧
      (s1.phase = 0b011#3 ∧ s1.hit = true →
        exec .phReceive s = .next { s1 with led := 0b0000#4, phase := 0b001#3 }) ∧
      (s1.phase = 0b011#3 ∧ s1.hit = false ∧ s.params.tReceiveTimeout ≤ s1.elapsed s1.tP →
        exec .phReceive s = .next { s1 with tP := s.now, led := 0b0000#4, given := false, phase := 0b100#3 }) ∧
      (s1.phase ≠ 0b011#3 ∨ (s1.hit = false ∧ s1.elapsed s1.tP < s.params.tReceiveTimeout) →
        exec .phReceive s = .next s1)

/-- R83: PH.LOST: the poll step, then, if a toggle is due, the target LED or OFF by cnt[0] while cnt is below N, and
else the return to Idle with counter, timers and LEDs reset (decisions D13, D14, D16). -/
def Obligations.LostHandlerTogglesThenIdles : Prop :=
  ∀ s : State, s.params.wf = true → s.phase = 0b100#3 →
    ∃ s1, exec .gatePoll s = .next s1 ∧ s1.phase = 0b100#3 ∧
      (s.params.tLostToggle ≤ s1.elapsed s1.tP →
        (s1.cnt < s.params.nLostToggles → exec .phLost s =
          .next { s1 with tP := s.now, cnt := s1.cnt + 1,
                          led := (if s1.cnt % 2 = 0 then onehot s.target else 0b0000#4) }) ∧
        (¬ s1.cnt < s.params.nLostToggles → exec .phLost s =
          .next { s1 with tP := s.now, tD := s.now, cnt := 0, led := 0b0000#4, phase := 0b000#3 })) ∧
      (¬ s.params.tLostToggle ≤ s1.elapsed s1.tP → exec .phLost s = .next s1)

/-- R57: a line that omits `rnd` is refused where the Idle blink or the entry to Give reads it, in the handler and in
GATE.PHASE alike (the refusal and its name are the model's reading, log 7). -/
def Obligations.OmittedRandomIsRefused : Prop :=
  ∀ s : State, s.input.rnd = none →
    (s.phase = 0b000#3 →
      (s.params.tIdleBlink ≤ s.elapsed s.tP → exec .gatePhase s = .refused .omittedRnd) ∧
      ∃ s1, exec .gatePoll s = .next s1 ∧
        (s1.phase = 0b000#3 ∧ s.params.tIdleBlink ≤ s1.elapsed s1.tP → exec .phIdle s = .refused .omittedRnd)) ∧
    (s.phase = 0b001#3 → ¬ s.cnt < s.params.nGameOnToggles → s.params.tGameOnToggle ≤ s.elapsed s.tP →
      exec .gatePhase s = .refused .omittedRnd ∧ exec .phGameOn s = .refused .omittedRnd)

/-- R79 to R83, R96: on a line that gives `rnd` each of the five handlers answers a next state in its phase, whatever the
registers hold, and leaves the parameters and the inputs alone. -/
def Obligations.HandlersCompleteInTheirPhase : Prop :=
  ∀ (s : State) (i : Instr) (p : Phase), s.RndGiven → s.phase = p.code →
    (p, i) ∈ [(Phase.idle, Instr.phIdle), (.gameOn, .phGameOn), (.give, .phGive), (.receive, .phReceive),
      (.lost, .phLost)] →
    ∃ t, exec i s = .next t ∧ SameOutside s t

/-! ## Whole-tick consequences -/

/-- R85, R90(3): in Idle, a confirmed press on any channel of a polling tick starts the round, and the blink of that tick
is skipped: `led` keeps its value and `rnd` is not read. -/
def Obligations.IdlePressStartsTheRound : Prop :=
  ∀ s : State, s.params.wf = true → s.rst = false → s.phase = 0b000#3 →
    s.params.tPollIdle ≤ s.elapsed s.tD → (∃ c, s.pressDue c) →
    ∃ t, exec .tick s = .next t ∧ t.phase = 0b001#3 ∧ t.cnt = 0 ∧ t.tP = s.now ∧ t.tD = s.now ∧
      t.led = s.led ∧ t.target = s.target ∧ t.given = s.given ∧ t.hit = s.hit

/-- R120, R122: a channel that is Up and pressed in one Idle poll, and pressed again in the next, starts the round. `s1` is
the state in which that next poll finds the block: any Idle state whose register of the channel is what the first poll
left (ticks that do not poll leave it: DebounceRegistersMoveOnlyInAPoll). -/
def Obligations.HeldPressStartsTheRound : Prop :=
  ∀ (s m s1 : State) (c : Channel), s.rst = false → s.phase = 0b000#3 →
    s.params.tPollIdle ≤ s.elapsed s.tD → s.deb.get c = .up → s.btn c = false → step s = .next m →
    s1.deb.get c = m.deb.get c →
    s1.params.wf = true → s1.phase = 0b000#3 → s1.rst = false → s1.params.tPollIdle ≤ s1.elapsed s1.tD →
    s1.btn c = false →
    ∃ t, step s1 = .next t ∧ t.phase = 0b001#3 ∧ t.cnt = 0 ∧ t.tP = s1.now

/-- R86, R90: in Give with the mole not given, a released channel on a polling tick loses the round, even if the wait ends
in that tick; the LEDs, the counter and tP are not written. -/
def Obligations.PrematureReleaseLoses : Prop :=
  ∀ s : State, s.params.wf = true → s.rst = false → s.phase = 0b010#3 → s.given = false →
    s.params.tPollActive ≤ s.elapsed s.tD → (∃ c, s.releaseDue c) →
    ∃ t, exec .tick s = .next t ∧ t.phase = 0b100#3 ∧ t.led = s.led ∧ t.cnt = s.cnt ∧ t.tP = s.tP ∧
      t.given = false ∧ t.hit = s.hit ∧ t.tD = s.now

/-- R86, R82, R90: in Receive, of the channels released in one poll the lowest decides the round: a hit if it is the lit
one, Lost with the LEDs cleared otherwise, whether or not the timeout is due in that tick. -/
def Obligations.LowestReleaseDecidesTheRound : Prop :=
  ∀ (s : State) (c : Channel), s.params.wf = true → s.rst = false → s.phase = 0b011#3 → s.hit = false →
    s.params.tPollActive ≤ s.elapsed s.tD → s.releaseDue c → (∀ j, j < c → ¬ s.releaseDue j) →
    ∃ t, exec .tick s = .next t ∧ t.led = 0b0000#4 ∧ t.tP = s.tP ∧ t.tD = s.now ∧ t.cnt = s.cnt ∧
      t.given = s.given ∧ t.target = s.target ∧
      (s.led = onehot c → t.phase = 0b001#3 ∧ t.hit = true) ∧
      (s.led ≠ onehot c → t.phase = 0b100#3 ∧ t.hit = false)

/-- R93: `rnd` is read only where the Idle blink fires and where GameOn chooses the target: on every other tick any value
of `rnd` on the tick's line, or none, gives the same outcome. -/
def Obligations.RandomIsReadOnlyForBlinkAndTarget : Prop :=
  ∀ (s t : State) (l : TickLine) (ls : List TickLine) (r : Option Channel), s.stim = l :: ls →
    ¬ (s.phase = 0b000#3 ∧ s.params.tIdleBlink ≤ s.elapsed s.tP) →
    ¬ (s.phase = 0b001#3 ∧ ¬ s.cnt < s.params.nGameOnToggles ∧ s.params.tGameOnToggle ≤ s.elapsed s.tP) →
    exec .tick s = .next t →
    exec .tick { s with stim := { l with rnd := r } :: ls } = .next { t with stim := { l with rnd := r } :: ls }

/-- R87: the phase changes of a tick without reset are exactly the edges of the phase graph, each with its cause. -/
def Obligations.PhaseChangesFollowTheGraph : Prop :=
  ∀ s t : State, s.rst = false → step s = .next t → t.phase ≠ s.phase →
    let due := s.elapsed s.tP
    let polled := s.elapsed s.tD
    (s.phase = 0b000#3 ∧ t.phase = 0b001#3 ∧ s.params.tPollIdle ≤ polled ∧ ∃ c, s.pressDue c) ∨
    (s.phase = 0b001#3 ∧ t.phase = 0b010#3 ∧ s.params.tGameOnToggle ≤ due ∧ s.params.nGameOnToggles ≤ s.cnt) ∨
    (s.phase = 0b010#3 ∧ t.phase = 0b011#3 ∧ s.params.tGiveWait ≤ due) ∨
    (s.phase = 0b010#3 ∧ t.phase = 0b100#3 ∧ s.given = false ∧ s.params.tPollActive ≤ polled ∧
      ∃ c, s.releaseDue c) ∨
    (s.phase = 0b011#3 ∧ t.phase = 0b001#3 ∧
      (s.hit = true ∨ (s.params.tPollActive ≤ polled ∧ ∃ c, s.releaseDue c ∧ s.led = onehot c))) ∨
    (s.phase = 0b011#3 ∧ t.phase = 0b100#3 ∧ s.hit = false ∧
      (s.params.tReceiveTimeout ≤ due ∨
        (s.params.tPollActive ≤ polled ∧ ∃ c, s.releaseDue c ∧ s.led ≠ onehot c))) ∨
    (s.phase = 0b100#3 ∧ t.phase = 0b000#3 ∧ s.params.tLostToggle ≤ due ∧ s.params.nLostToggles ≤ s.cnt)

/-- R95: a tick without reset writes a timestamp only with `now`: tD on every poll-gate firing and on Lost to Idle, tP on
a phase-gate firing and on the PRESS that leaves Idle; Give to Lost and the hit exit leave tP (decision D16). -/
def Obligations.TimestampsAreWrittenOnlyByTheirWriters : Prop :=
  ∀ (s t : State) (p : Phase), s.rst = false → s.phase = p.code → step s = .next t →
    (tPoll s.params p ≤ s.elapsed s.tD → t.tD = s.now) ∧
    (s.elapsed s.tD < tPoll s.params p → t.tD = s.tD ∨ (t.tD = s.now ∧ p = .lost ∧ t.phase = 0b000#3)) ∧
    (s.elapsed s.tP < tAction s.params p → t.tP = s.tP ∨ (t.tP = s.now ∧ p = .idle ∧ t.phase = 0b001#3)) ∧
    (t.tP = s.tP ∨ t.tP = s.now) ∧
    (p = .idle ∧ t.phase = 0b001#3 → t.tP = s.now) ∧
    (p = .lost ∧ t.phase = 0b000#3 → t.tD = s.now ∧ t.tP = s.now) ∧
    (p = .give ∧ t.phase = 0b100#3 → t.tP = s.tP) ∧ (p = .receive ∧ t.phase = 0b001#3 → t.tP = s.tP)

/-- R92: a tick without reset sets `given` only on Give to Receive and clears it only on the Receive timeout and, if so
built, on GameOn to Give; it sets `hit` only by a released lit channel in Receive and clears it only on Give to Receive. -/
def Obligations.FlagsChangeOnlyAsTabled : Prop :=
  ∀ s t : State, s.rst = false → step s = .next t →
    (t.given = true → s.given = true ∨ (s.phase = 0b010#3 ∧ t.phase = 0b011#3)) ∧
    (t.given = false → s.given = false ∨ (s.phase = 0b011#3 ∧ t.phase = 0b100#3) ∨
      (s.phase = 0b001#3 ∧ t.phase = 0b010#3 ∧ s.params.givenClearOnGive = true)) ∧
    (t.hit = true → s.hit = true ∨ (s.phase = 0b011#3 ∧ ∃ c, s.releaseDue c ∧ s.led = onehot c)) ∧
    (t.hit = false → s.hit = false ∨ (s.phase = 0b010#3 ∧ t.phase = 0b011#3))

/-- R19: a tick without reset writes `target` only on GameOn to Give, with that tick's `rnd`. -/
def Obligations.TargetIsChosenOnEntryToGive : Prop :=
  ∀ s t : State, s.rst = false → step s = .next t →
    (s.phase = 0b001#3 ∧ t.phase = 0b010#3 → s.input.rnd = some t.target) ∧
    (¬ (s.phase = 0b001#3 ∧ t.phase = 0b010#3) → t.target = s.target)

/-- R103, R88: whatever the state, a tick leaves `led` as it was or writes one of the values the mux issues. -/
def Obligations.TicksWriteOnlyMuxValuesToLed : Prop :=
  ∀ s t : State, step s = .next t → t.led = s.led ∨ LedLegal t.led

/-! ## Invariants -/

/-- R22 to R24: every operation keeps the numeric registers within their widths, from every state in which they are. -/
def Obligations.RegistersStayWithinTheirWidths : Prop :=
  ∀ (i : Instr) (s t : State), RegistersFit s → exec i s = .next t → RegistersFit t

/-- R88, R89: every step keeps the game invariant: the per-phase values of the LEDs, the counter and the flags, the legal
phase and the register widths, for all valid parameters. -/
def Obligations.EveryStepKeepsTheGameInvariant : Prop :=
  ∀ s t : State, GameInv s → step s = .next t → GameInv t

/-- R89, R117: the reset state meets the game invariant. -/
def Obligations.ResetMeetsTheGameInvariant : Prop := GameInv State.reset

/-! ## Output ports -/

/-- R34: each output port shows its register; `deb_o` carries channel i's 2-bit code at bits 2i+1 and 2i, and the ports of
the numeric registers show the whole value when it fits. -/
def Obligations.PortsShowTheRegisters : Prop :=
  ∀ s : State, s.ledPort = s.led ∧ s.phaseO = s.phase ∧
    (∀ c : Channel, DebState.ofCode (s.debO.extractLsb' (2 * c.val) 2) = s.deb.get c) ∧
    channelOfBits s.targetO = s.target ∧ (s.givenO = 1#1 ↔ s.given = true) ∧ (s.hitO = 1#1 ↔ s.hit = true) ∧
    (RegistersFit s → s.cntO.toNat = s.cnt ∧ s.tDO.toNat = s.tD ∧ s.tPO.toNat = s.tP)

/-! ## Operations executed by themselves where no key selects them: the model's reading -/

/-- Log 15, beside R49, R85 and R86: executed by themselves in a state whose phase is 101, 110 or 111, the events have no
effect, the two debounce rows that raise them write their channel's register only, and POLL moves the debounce registers
only. The spec gives these cases no meaning and a tick never reaches them. -/
def Obligations.EventsHaveNoEffectInAnIllegalPhase : Prop :=
  ∀ s : State, ¬ s.LegalPhase →
    (∀ c, exec (.evtPress c) s = .next s ∧ exec (.evtRelease c) s = .next s ∧
      exec (.debFall0 c) s = .next { s with deb := s.deb.set c .down } ∧
      exec (.debDown1 c) s = .next { s with deb := s.deb.set c .rising }) ∧
    ∃ t, exec .poll s = .next t ∧ t = { s with deb := t.deb } ∧
      ∀ c, t.deb.get c = match s.deb.get c, s.btn c with
        | .up, false => .falling
        | .up, true => .up
        | .falling, false => .down
        | .falling, true => .up
        | .down, true => .rising
        | .down, false => .down
        | .rising, true => .up
        | .rising, false => .down

/-- Log 9, beside R84: the rows of PH.ILLEGAL executed by themselves in any phase refuse with the code the phase register
holds. The spec executes them only in the phase that is their key. -/
def Obligations.IllegalRowsRefuseInEveryPhase : Prop :=
  ∀ s : State, exec .phIllegal101 s = .refused (.illegalPhase s.phase) ∧
    exec .phIllegal110 s = .refused (.illegalPhase s.phase) ∧
    exec .phIllegal111 s = .refused (.illegalPhase s.phase)
end

