-- ==== Sys2Proof/Laws/State.lean ====
section
/-! SUPPORT. One lemma per field per register write, and that no write moves the inputs of the tick: what each write of
Machine/Ops.lean and Machine/Flags.lean leaves in each field. -/

namespace Sys2Proof.Machine


@[simp] theorem State.setDeb_deb (i : Channel) (v : DebState) (s : State) : (s.setDeb i v).deb = s.deb.set i v := rfl
@[simp] theorem State.setDeb_phase (i : Channel) (v : DebState) (s : State) : (s.setDeb i v).phase = s.phase := rfl
@[simp] theorem State.setDeb_target (i : Channel) (v : DebState) (s : State) : (s.setDeb i v).target = s.target := rfl
@[simp] theorem State.setDeb_given (i : Channel) (v : DebState) (s : State) : (s.setDeb i v).given = s.given := rfl
@[simp] theorem State.setDeb_hit (i : Channel) (v : DebState) (s : State) : (s.setDeb i v).hit = s.hit := rfl
@[simp] theorem State.setDeb_cnt (i : Channel) (v : DebState) (s : State) : (s.setDeb i v).cnt = s.cnt := rfl
@[simp] theorem State.setDeb_tD (i : Channel) (v : DebState) (s : State) : (s.setDeb i v).tD = s.tD := rfl
@[simp] theorem State.setDeb_tP (i : Channel) (v : DebState) (s : State) : (s.setDeb i v).tP = s.tP := rfl
@[simp] theorem State.setDeb_led (i : Channel) (v : DebState) (s : State) : (s.setDeb i v).led = s.led := rfl
@[simp] theorem State.setDeb_params (i : Channel) (v : DebState) (s : State) : (s.setDeb i v).params = s.params := rfl
@[simp] theorem State.setDeb_stim (i : Channel) (v : DebState) (s : State) : (s.setDeb i v).stim = s.stim := rfl
@[simp] theorem State.setDeb_ticks (i : Channel) (v : DebState) (s : State) : (s.setDeb i v).ticks = s.ticks := rfl
@[simp] theorem State.setDeb_input (i : Channel) (v : DebState) (s : State) : (s.setDeb i v).input = s.input := rfl
@[simp] theorem State.setDeb_now (i : Channel) (v : DebState) (s : State) : (s.setDeb i v).now = s.now := rfl
@[simp] theorem State.setDeb_rst (i : Channel) (v : DebState) (s : State) : (s.setDeb i v).rst = s.rst := rfl
@[simp] theorem State.setDeb_btn (i : Channel) (v : DebState) (s : State) (j : Channel) : (s.setDeb i v).btn j = s.btn j := rfl
@[simp] theorem State.setDeb_elapsed (i : Channel) (v : DebState) (s : State) (m : Nat) : (s.setDeb i v).elapsed m = s.elapsed m := rfl
@[simp] theorem State.setDeb_gate (i : Channel) (v : DebState) (s : State) (m t : Nat) : (s.setDeb i v).gate m t = s.gate m t := rfl

@[simp] theorem State.setPhase_deb (p : Phase) (s : State) : (s.setPhase p).deb = s.deb := rfl
@[simp] theorem State.setPhase_phase (p : Phase) (s : State) : (s.setPhase p).phase = p.code := rfl
@[simp] theorem State.setPhase_target (p : Phase) (s : State) : (s.setPhase p).target = s.target := rfl
@[simp] theorem State.setPhase_given (p : Phase) (s : State) : (s.setPhase p).given = s.given := rfl
@[simp] theorem State.setPhase_hit (p : Phase) (s : State) : (s.setPhase p).hit = s.hit := rfl
@[simp] theorem State.setPhase_cnt (p : Phase) (s : State) : (s.setPhase p).cnt = s.cnt := rfl
@[simp] theorem State.setPhase_tD (p : Phase) (s : State) : (s.setPhase p).tD = s.tD := rfl
@[simp] theorem State.setPhase_tP (p : Phase) (s : State) : (s.setPhase p).tP = s.tP := rfl
@[simp] theorem State.setPhase_led (p : Phase) (s : State) : (s.setPhase p).led = s.led := rfl
@[simp] theorem State.setPhase_params (p : Phase) (s : State) : (s.setPhase p).params = s.params := rfl
@[simp] theorem State.setPhase_stim (p : Phase) (s : State) : (s.setPhase p).stim = s.stim := rfl
@[simp] theorem State.setPhase_ticks (p : Phase) (s : State) : (s.setPhase p).ticks = s.ticks := rfl
@[simp] theorem State.setPhase_input (p : Phase) (s : State) : (s.setPhase p).input = s.input := rfl
@[simp] theorem State.setPhase_now (p : Phase) (s : State) : (s.setPhase p).now = s.now := rfl
@[simp] theorem State.setPhase_rst (p : Phase) (s : State) : (s.setPhase p).rst = s.rst := rfl
@[simp] theorem State.setPhase_btn (p : Phase) (s : State) (j : Channel) : (s.setPhase p).btn j = s.btn j := rfl
@[simp] theorem State.setPhase_elapsed (p : Phase) (s : State) (m : Nat) : (s.setPhase p).elapsed m = s.elapsed m := rfl
@[simp] theorem State.setPhase_gate (p : Phase) (s : State) (m t : Nat) : (s.setPhase p).gate m t = s.gate m t := rfl

@[simp] theorem State.setTarget_deb (c : Channel) (s : State) : (s.setTarget c).deb = s.deb := rfl
@[simp] theorem State.setTarget_phase (c : Channel) (s : State) : (s.setTarget c).phase = s.phase := rfl
@[simp] theorem State.setTarget_target (c : Channel) (s : State) : (s.setTarget c).target = c := rfl
@[simp] theorem State.setTarget_given (c : Channel) (s : State) : (s.setTarget c).given = s.given := rfl
@[simp] theorem State.setTarget_hit (c : Channel) (s : State) : (s.setTarget c).hit = s.hit := rfl
@[simp] theorem State.setTarget_cnt (c : Channel) (s : State) : (s.setTarget c).cnt = s.cnt := rfl
@[simp] theorem State.setTarget_tD (c : Channel) (s : State) : (s.setTarget c).tD = s.tD := rfl
@[simp] theorem State.setTarget_tP (c : Channel) (s : State) : (s.setTarget c).tP = s.tP := rfl
@[simp] theorem State.setTarget_led (c : Channel) (s : State) : (s.setTarget c).led = s.led := rfl
@[simp] theorem State.setTarget_params (c : Channel) (s : State) : (s.setTarget c).params = s.params := rfl
@[simp] theorem State.setTarget_stim (c : Channel) (s : State) : (s.setTarget c).stim = s.stim := rfl
@[simp] theorem State.setTarget_ticks (c : Channel) (s : State) : (s.setTarget c).ticks = s.ticks := rfl
@[simp] theorem State.setTarget_input (c : Channel) (s : State) : (s.setTarget c).input = s.input := rfl
@[simp] theorem State.setTarget_now (c : Channel) (s : State) : (s.setTarget c).now = s.now := rfl
@[simp] theorem State.setTarget_rst (c : Channel) (s : State) : (s.setTarget c).rst = s.rst := rfl
@[simp] theorem State.setTarget_btn (c : Channel) (s : State) (j : Channel) : (s.setTarget c).btn j = s.btn j := rfl
@[simp] theorem State.setTarget_elapsed (c : Channel) (s : State) (m : Nat) : (s.setTarget c).elapsed m = s.elapsed m := rfl
@[simp] theorem State.setTarget_gate (c : Channel) (s : State) (m t : Nat) : (s.setTarget c).gate m t = s.gate m t := rfl

@[simp] theorem State.setGiven_deb (b : Bool) (s : State) : (s.setGiven b).deb = s.deb := rfl
@[simp] theorem State.setGiven_phase (b : Bool) (s : State) : (s.setGiven b).phase = s.phase := rfl
@[simp] theorem State.setGiven_target (b : Bool) (s : State) : (s.setGiven b).target = s.target := rfl
@[simp] theorem State.setGiven_given (b : Bool) (s : State) : (s.setGiven b).given = b := rfl
@[simp] theorem State.setGiven_hit (b : Bool) (s : State) : (s.setGiven b).hit = s.hit := rfl
@[simp] theorem State.setGiven_cnt (b : Bool) (s : State) : (s.setGiven b).cnt = s.cnt := rfl
@[simp] theorem State.setGiven_tD (b : Bool) (s : State) : (s.setGiven b).tD = s.tD := rfl
@[simp] theorem State.setGiven_tP (b : Bool) (s : State) : (s.setGiven b).tP = s.tP := rfl
@[simp] theorem State.setGiven_led (b : Bool) (s : State) : (s.setGiven b).led = s.led := rfl
@[simp] theorem State.setGiven_params (b : Bool) (s : State) : (s.setGiven b).params = s.params := rfl
@[simp] theorem State.setGiven_stim (b : Bool) (s : State) : (s.setGiven b).stim = s.stim := rfl
@[simp] theorem State.setGiven_ticks (b : Bool) (s : State) : (s.setGiven b).ticks = s.ticks := rfl
@[simp] theorem State.setGiven_input (b : Bool) (s : State) : (s.setGiven b).input = s.input := rfl
@[simp] theorem State.setGiven_now (b : Bool) (s : State) : (s.setGiven b).now = s.now := rfl
@[simp] theorem State.setGiven_rst (b : Bool) (s : State) : (s.setGiven b).rst = s.rst := rfl
@[simp] theorem State.setGiven_btn (b : Bool) (s : State) (j : Channel) : (s.setGiven b).btn j = s.btn j := rfl
@[simp] theorem State.setGiven_elapsed (b : Bool) (s : State) (m : Nat) : (s.setGiven b).elapsed m = s.elapsed m := rfl
@[simp] theorem State.setGiven_gate (b : Bool) (s : State) (m t : Nat) : (s.setGiven b).gate m t = s.gate m t := rfl

@[simp] theorem State.setHit_deb (b : Bool) (s : State) : (s.setHit b).deb = s.deb := rfl
@[simp] theorem State.setHit_phase (b : Bool) (s : State) : (s.setHit b).phase = s.phase := rfl
@[simp] theorem State.setHit_target (b : Bool) (s : State) : (s.setHit b).target = s.target := rfl
@[simp] theorem State.setHit_given (b : Bool) (s : State) : (s.setHit b).given = s.given := rfl
@[simp] theorem State.setHit_hit (b : Bool) (s : State) : (s.setHit b).hit = b := rfl
@[simp] theorem State.setHit_cnt (b : Bool) (s : State) : (s.setHit b).cnt = s.cnt := rfl
@[simp] theorem State.setHit_tD (b : Bool) (s : State) : (s.setHit b).tD = s.tD := rfl
@[simp] theorem State.setHit_tP (b : Bool) (s : State) : (s.setHit b).tP = s.tP := rfl
@[simp] theorem State.setHit_led (b : Bool) (s : State) : (s.setHit b).led = s.led := rfl
@[simp] theorem State.setHit_params (b : Bool) (s : State) : (s.setHit b).params = s.params := rfl
@[simp] theorem State.setHit_stim (b : Bool) (s : State) : (s.setHit b).stim = s.stim := rfl
@[simp] theorem State.setHit_ticks (b : Bool) (s : State) : (s.setHit b).ticks = s.ticks := rfl
@[simp] theorem State.setHit_input (b : Bool) (s : State) : (s.setHit b).input = s.input := rfl
@[simp] theorem State.setHit_now (b : Bool) (s : State) : (s.setHit b).now = s.now := rfl
@[simp] theorem State.setHit_rst (b : Bool) (s : State) : (s.setHit b).rst = s.rst := rfl
@[simp] theorem State.setHit_btn (b : Bool) (s : State) (j : Channel) : (s.setHit b).btn j = s.btn j := rfl
@[simp] theorem State.setHit_elapsed (b : Bool) (s : State) (m : Nat) : (s.setHit b).elapsed m = s.elapsed m := rfl
@[simp] theorem State.setHit_gate (b : Bool) (s : State) (m t : Nat) : (s.setHit b).gate m t = s.gate m t := rfl

@[simp] theorem State.setCnt_deb (n : Nat) (s : State) : (s.setCnt n).deb = s.deb := rfl
@[simp] theorem State.setCnt_phase (n : Nat) (s : State) : (s.setCnt n).phase = s.phase := rfl
@[simp] theorem State.setCnt_target (n : Nat) (s : State) : (s.setCnt n).target = s.target := rfl
@[simp] theorem State.setCnt_given (n : Nat) (s : State) : (s.setCnt n).given = s.given := rfl
@[simp] theorem State.setCnt_hit (n : Nat) (s : State) : (s.setCnt n).hit = s.hit := rfl
@[simp] theorem State.setCnt_cnt (n : Nat) (s : State) : (s.setCnt n).cnt = wrap s.params.wCnt n := rfl
@[simp] theorem State.setCnt_tD (n : Nat) (s : State) : (s.setCnt n).tD = s.tD := rfl
@[simp] theorem State.setCnt_tP (n : Nat) (s : State) : (s.setCnt n).tP = s.tP := rfl
@[simp] theorem State.setCnt_led (n : Nat) (s : State) : (s.setCnt n).led = s.led := rfl
@[simp] theorem State.setCnt_params (n : Nat) (s : State) : (s.setCnt n).params = s.params := rfl
@[simp] theorem State.setCnt_stim (n : Nat) (s : State) : (s.setCnt n).stim = s.stim := rfl
@[simp] theorem State.setCnt_ticks (n : Nat) (s : State) : (s.setCnt n).ticks = s.ticks := rfl
@[simp] theorem State.setCnt_input (n : Nat) (s : State) : (s.setCnt n).input = s.input := rfl
@[simp] theorem State.setCnt_now (n : Nat) (s : State) : (s.setCnt n).now = s.now := rfl
@[simp] theorem State.setCnt_rst (n : Nat) (s : State) : (s.setCnt n).rst = s.rst := rfl
@[simp] theorem State.setCnt_btn (n : Nat) (s : State) (j : Channel) : (s.setCnt n).btn j = s.btn j := rfl
@[simp] theorem State.setCnt_elapsed (n : Nat) (s : State) (m : Nat) : (s.setCnt n).elapsed m = s.elapsed m := rfl
@[simp] theorem State.setCnt_gate (n : Nat) (s : State) (m t : Nat) : (s.setCnt n).gate m t = s.gate m t := rfl

@[simp] theorem State.markPoll_deb (s : State) : (s.markPoll).deb = s.deb := rfl
@[simp] theorem State.markPoll_phase (s : State) : (s.markPoll).phase = s.phase := rfl
@[simp] theorem State.markPoll_target (s : State) : (s.markPoll).target = s.target := rfl
@[simp] theorem State.markPoll_given (s : State) : (s.markPoll).given = s.given := rfl
@[simp] theorem State.markPoll_hit (s : State) : (s.markPoll).hit = s.hit := rfl
@[simp] theorem State.markPoll_cnt (s : State) : (s.markPoll).cnt = s.cnt := rfl
@[simp] theorem State.markPoll_tD (s : State) : (s.markPoll).tD = s.now := rfl
@[simp] theorem State.markPoll_tP (s : State) : (s.markPoll).tP = s.tP := rfl
@[simp] theorem State.markPoll_led (s : State) : (s.markPoll).led = s.led := rfl
@[simp] theorem State.markPoll_params (s : State) : (s.markPoll).params = s.params := rfl
@[simp] theorem State.markPoll_stim (s : State) : (s.markPoll).stim = s.stim := rfl
@[simp] theorem State.markPoll_ticks (s : State) : (s.markPoll).ticks = s.ticks := rfl
@[simp] theorem State.markPoll_input (s : State) : (s.markPoll).input = s.input := rfl
@[simp] theorem State.markPoll_now (s : State) : (s.markPoll).now = s.now := rfl
@[simp] theorem State.markPoll_rst (s : State) : (s.markPoll).rst = s.rst := rfl
@[simp] theorem State.markPoll_btn (s : State) (j : Channel) : (s.markPoll).btn j = s.btn j := rfl
@[simp] theorem State.markPoll_elapsed (s : State) (m : Nat) : (s.markPoll).elapsed m = s.elapsed m := rfl
@[simp] theorem State.markPoll_gate (s : State) (m t : Nat) : (s.markPoll).gate m t = s.gate m t := rfl

@[simp] theorem State.markPhase_deb (s : State) : (s.markPhase).deb = s.deb := rfl
@[simp] theorem State.markPhase_phase (s : State) : (s.markPhase).phase = s.phase := rfl
@[simp] theorem State.markPhase_target (s : State) : (s.markPhase).target = s.target := rfl
@[simp] theorem State.markPhase_given (s : State) : (s.markPhase).given = s.given := rfl
@[simp] theorem State.markPhase_hit (s : State) : (s.markPhase).hit = s.hit := rfl
@[simp] theorem State.markPhase_cnt (s : State) : (s.markPhase).cnt = s.cnt := rfl
@[simp] theorem State.markPhase_tD (s : State) : (s.markPhase).tD = s.tD := rfl
@[simp] theorem State.markPhase_tP (s : State) : (s.markPhase).tP = s.now := rfl
@[simp] theorem State.markPhase_led (s : State) : (s.markPhase).led = s.led := rfl
@[simp] theorem State.markPhase_params (s : State) : (s.markPhase).params = s.params := rfl
@[simp] theorem State.markPhase_stim (s : State) : (s.markPhase).stim = s.stim := rfl
@[simp] theorem State.markPhase_ticks (s : State) : (s.markPhase).ticks = s.ticks := rfl
@[simp] theorem State.markPhase_input (s : State) : (s.markPhase).input = s.input := rfl
@[simp] theorem State.markPhase_now (s : State) : (s.markPhase).now = s.now := rfl
@[simp] theorem State.markPhase_rst (s : State) : (s.markPhase).rst = s.rst := rfl
@[simp] theorem State.markPhase_btn (s : State) (j : Channel) : (s.markPhase).btn j = s.btn j := rfl
@[simp] theorem State.markPhase_elapsed (s : State) (m : Nat) : (s.markPhase).elapsed m = s.elapsed m := rfl
@[simp] theorem State.markPhase_gate (s : State) (m t : Nat) : (s.markPhase).gate m t = s.gate m t := rfl

@[simp] theorem State.setLed_deb (v : BitVec 4) (s : State) : (s.setLed v).deb = s.deb := rfl
@[simp] theorem State.setLed_phase (v : BitVec 4) (s : State) : (s.setLed v).phase = s.phase := rfl
@[simp] theorem State.setLed_target (v : BitVec 4) (s : State) : (s.setLed v).target = s.target := rfl
@[simp] theorem State.setLed_given (v : BitVec 4) (s : State) : (s.setLed v).given = s.given := rfl
@[simp] theorem State.setLed_hit (v : BitVec 4) (s : State) : (s.setLed v).hit = s.hit := rfl
@[simp] theorem State.setLed_cnt (v : BitVec 4) (s : State) : (s.setLed v).cnt = s.cnt := rfl
@[simp] theorem State.setLed_tD (v : BitVec 4) (s : State) : (s.setLed v).tD = s.tD := rfl
@[simp] theorem State.setLed_tP (v : BitVec 4) (s : State) : (s.setLed v).tP = s.tP := rfl
@[simp] theorem State.setLed_led (v : BitVec 4) (s : State) : (s.setLed v).led = v := rfl
@[simp] theorem State.setLed_params (v : BitVec 4) (s : State) : (s.setLed v).params = s.params := rfl
@[simp] theorem State.setLed_stim (v : BitVec 4) (s : State) : (s.setLed v).stim = s.stim := rfl
@[simp] theorem State.setLed_ticks (v : BitVec 4) (s : State) : (s.setLed v).ticks = s.ticks := rfl
@[simp] theorem State.setLed_input (v : BitVec 4) (s : State) : (s.setLed v).input = s.input := rfl
@[simp] theorem State.setLed_now (v : BitVec 4) (s : State) : (s.setLed v).now = s.now := rfl
@[simp] theorem State.setLed_rst (v : BitVec 4) (s : State) : (s.setLed v).rst = s.rst := rfl
@[simp] theorem State.setLed_btn (v : BitVec 4) (s : State) (j : Channel) : (s.setLed v).btn j = s.btn j := rfl
@[simp] theorem State.setLed_elapsed (v : BitVec 4) (s : State) (m : Nat) : (s.setLed v).elapsed m = s.elapsed m := rfl
@[simp] theorem State.setLed_gate (v : BitVec 4) (s : State) (m t : Nat) : (s.setLed v).gate m t = s.gate m t := rfl

@[simp] theorem State.resetRegs_deb (s : State) : (s.resetRegs).deb = DebFile.all .up := rfl
@[simp] theorem State.resetRegs_phase (s : State) : (s.resetRegs).phase = Phase.idle.code := rfl
@[simp] theorem State.resetRegs_target (s : State) : (s.resetRegs).target = 0 := rfl
@[simp] theorem State.resetRegs_given (s : State) : (s.resetRegs).given = false := rfl
@[simp] theorem State.resetRegs_hit (s : State) : (s.resetRegs).hit = false := rfl
@[simp] theorem State.resetRegs_cnt (s : State) : (s.resetRegs).cnt = 0 := rfl
@[simp] theorem State.resetRegs_tD (s : State) : (s.resetRegs).tD = 0 := rfl
@[simp] theorem State.resetRegs_tP (s : State) : (s.resetRegs).tP = 0 := rfl
@[simp] theorem State.resetRegs_led (s : State) : (s.resetRegs).led = 0b0000#4 := rfl
@[simp] theorem State.resetRegs_params (s : State) : (s.resetRegs).params = s.params := rfl
@[simp] theorem State.resetRegs_stim (s : State) : (s.resetRegs).stim = s.stim := rfl
@[simp] theorem State.resetRegs_ticks (s : State) : (s.resetRegs).ticks = s.ticks := rfl
@[simp] theorem State.resetRegs_input (s : State) : (s.resetRegs).input = s.input := rfl
@[simp] theorem State.resetRegs_now (s : State) : (s.resetRegs).now = s.now := rfl
@[simp] theorem State.resetRegs_rst (s : State) : (s.resetRegs).rst = s.rst := rfl
@[simp] theorem State.resetRegs_btn (s : State) (j : Channel) : (s.resetRegs).btn j = s.btn j := rfl
@[simp] theorem State.resetRegs_elapsed (s : State) (m : Nat) : (s.resetRegs).elapsed m = s.elapsed m := rfl
@[simp] theorem State.resetRegs_gate (s : State) (m t : Nat) : (s.resetRegs).gate m t = s.gate m t := rfl

@[simp] theorem State.advance_deb (s : State) : (s.advance).deb = s.deb := rfl
@[simp] theorem State.advance_phase (s : State) : (s.advance).phase = s.phase := rfl
@[simp] theorem State.advance_target (s : State) : (s.advance).target = s.target := rfl
@[simp] theorem State.advance_given (s : State) : (s.advance).given = s.given := rfl
@[simp] theorem State.advance_hit (s : State) : (s.advance).hit = s.hit := rfl
@[simp] theorem State.advance_cnt (s : State) : (s.advance).cnt = s.cnt := rfl
@[simp] theorem State.advance_tD (s : State) : (s.advance).tD = s.tD := rfl
@[simp] theorem State.advance_tP (s : State) : (s.advance).tP = s.tP := rfl
@[simp] theorem State.advance_led (s : State) : (s.advance).led = s.led := rfl
@[simp] theorem State.advance_params (s : State) : (s.advance).params = s.params := rfl
@[simp] theorem State.advance_stim (s : State) : (s.advance).stim = s.stim.tail := rfl
@[simp] theorem State.advance_ticks (s : State) : (s.advance).ticks = s.ticks + 1 := rfl

@[simp] theorem State.withStim_deb (s : State) (p : List TickLine) : (s.withStim p).deb = s.deb := rfl
@[simp] theorem State.withStim_phase (s : State) (p : List TickLine) : (s.withStim p).phase = s.phase := rfl
@[simp] theorem State.withStim_target (s : State) (p : List TickLine) : (s.withStim p).target = s.target := rfl
@[simp] theorem State.withStim_given (s : State) (p : List TickLine) : (s.withStim p).given = s.given := rfl
@[simp] theorem State.withStim_hit (s : State) (p : List TickLine) : (s.withStim p).hit = s.hit := rfl
@[simp] theorem State.withStim_cnt (s : State) (p : List TickLine) : (s.withStim p).cnt = s.cnt := rfl
@[simp] theorem State.withStim_tD (s : State) (p : List TickLine) : (s.withStim p).tD = s.tD := rfl
@[simp] theorem State.withStim_tP (s : State) (p : List TickLine) : (s.withStim p).tP = s.tP := rfl
@[simp] theorem State.withStim_led (s : State) (p : List TickLine) : (s.withStim p).led = s.led := rfl
@[simp] theorem State.withStim_params (s : State) (p : List TickLine) : (s.withStim p).params = s.params := rfl
@[simp] theorem State.withStim_stim (s : State) (p : List TickLine) : (s.withStim p).stim = p := rfl
@[simp] theorem State.withStim_ticks (s : State) (p : List TickLine) : (s.withStim p).ticks = s.ticks := rfl

end Sys2Proof.Machine
end

