-- ==== Sys2Proof/Laws/Ops.lean ====
section
/-! SUPPORT. What the shared operations say: the debounce register file, wrapping subtraction and the gate comparison, the
phase codes, the parameter check, and the use of `rnd`. -/

namespace Sys2Proof

@[simp] theorem DebFile.get_set_self (d : DebFile) (i : Channel) (v : DebState) : (d.set i v).get i = v := by
  fin_cases i <;> rfl

theorem DebFile.get_set_ne (d : DebFile) {i j : Channel} (v : DebState) (h : j ≠ i) :
    (d.set i v).get j = d.get j := by
  fin_cases i <;> fin_cases j <;> first | rfl | exact absurd rfl h

theorem DebFile.get_set (d : DebFile) (i j : Channel) (v : DebState) :
    (d.set i v).get j = if j = i then v else d.get j := by
  split
  · next h => rw [h, DebFile.get_set_self]
  · next h => exact d.get_set_ne v h

@[simp] theorem DebFile.get_all (v : DebState) (i : Channel) : (DebFile.all v).get i = v := by
  fin_cases i <;> rfl

theorem DebFile.ext_get {d e : DebFile} (h : ∀ i, d.get i = e.get i) : d = e := by
  cases d; cases e
  have h0 := h 0; have h1 := h 1; have h2 := h 2; have h3 := h 3
  simp only [DebFile.get] at h0 h1 h2 h3
  subst h0; subst h1; subst h2; subst h3; rfl

/-- Writing the value a channel already holds changes nothing. -/
theorem DebFile.set_get_self (d : DebFile) (i : Channel) : d.set i (d.get i) = d :=
  DebFile.ext_get fun j => by rw [DebFile.get_set]; split <;> simp_all

theorem wrap_lt (w x : Nat) : wrap w x < 2 ^ w := Nat.mod_lt _ (Nat.two_pow_pos w)

theorem wrap_of_lt {w x : Nat} (h : x < 2 ^ w) : wrap w x = x := Nat.mod_eq_of_lt h

theorem wrapSub_lt (w x y : Nat) : wrapSub w x y < 2 ^ w := Nat.mod_lt _ (Nat.two_pow_pos w)

theorem wrapSub_of_le {w x y : Nat} (hx : x < 2 ^ w) (h : y ≤ x) : wrapSub w x y = x - y := by
  unfold wrapSub
  rw [Nat.mod_eq_of_lt (show y < 2 ^ w by omega), show x + (2 ^ w - y) = (x - y) + 2 ^ w by omega,
    Nat.add_mod_right, Nat.mod_eq_of_lt (by omega)]

theorem wrapSub_of_lt {w x y : Nat} (hy : y < 2 ^ w) (h : x < y) : wrapSub w x y = 2 ^ w - (y - x) := by
  unfold wrapSub
  rw [Nat.mod_eq_of_lt hy, Nat.mod_eq_of_lt (by omega)]
  omega

@[simp] theorem Phase.code_inj {p q : Phase} : p.code = q.code ↔ p = q := by
  cases p <;> cases q <;> decide

@[simp] theorem phaseOf_code (p : Phase) : phaseOf p.code = some p := by cases p <;> rfl

theorem phaseOf_eq_some {c : BitVec 3} {p : Phase} : phaseOf c = some p ↔ c = p.code := by
  constructor
  · intro h
    have : ∀ c : BitVec 3, ∀ p ∈ phaseOf c, c = p.code := by decide
    exact this c p h
  · rintro rfl; exact phaseOf_code p

theorem phaseOf_eq_none {c : BitVec 3} : phaseOf c = none ↔ c = 0b101#3 ∨ c = 0b110#3 ∨ c = 0b111#3 := by
  revert c; decide

namespace Machine

theorem checkParams_eq_none_iff (p : Params) : checkParams p = none ↔ p.wf = true := by
  simp [checkParams, paramChecks, Params.wf, and_assoc]

/-- The name a broken parameter set is refused with is that of a constraint it breaks. -/
theorem checkParams_eq_some {p : Params} {n : ParamName} (h : checkParams p = some n) :
    (n, false) ∈ paramChecks p := by
  obtain ⟨⟨m, b⟩, hf, rfl⟩ := Option.map_eq_some_iff.1 h
  have hb := List.find?_some hf
  simp only [Bool.not_eq_true'] at hb
  subst hb
  exact List.mem_of_find?_eq_some hf

theorem checkParams_isSome_iff (p : Params) : (∃ n, checkParams p = some n) ↔ p.wf = false := by
  rw [← Option.isSome_iff_exists, ← Option.ne_none_iff_isSome, Ne, checkParams_eq_none_iff, Bool.not_eq_true]

theorem State.now_lt (s : State) : s.now < 2 ^ s.params.wMs := wrap_lt _ _

theorem State.elapsed_lt (s : State) (m : Nat) : s.elapsed m < 2 ^ s.params.wMs := wrapSub_lt _ _ _

theorem State.elapsed_of_le (s : State) {m : Nat} (h : m ≤ s.now) : s.elapsed m = s.now - m :=
  wrapSub_of_le s.now_lt h

theorem State.elapsed_of_lt (s : State) {m : Nat} (hm : m < 2 ^ s.params.wMs) (h : s.now < m) :
    s.elapsed m = 2 ^ s.params.wMs - (m - s.now) :=
  wrapSub_of_lt hm h

@[simp] theorem State.gate_eq_true (s : State) (m t : Nat) : s.gate m t = true ↔ t ≤ s.elapsed m := by
  simp [State.gate]

/-- All `withRnd` can do. -/
theorem withRnd_cases (s : State) (f : Channel → State) :
    (∃ r, s.input.rnd = some r ∧ withRnd s f = .next (f r)) ∨
      (s.input.rnd = none ∧ withRnd s f = .refused .omittedRnd) := by
  unfold withRnd
  cases h : s.input.rnd with
  | none => exact .inr ⟨rfl, rfl⟩
  | some r => exact .inl ⟨r, rfl, rfl⟩

theorem withRnd_of_some {s : State} {r : Channel} (h : s.input.rnd = some r) (f : Channel → State) :
    withRnd s f = .next (f r) := by simp [withRnd, h]

theorem withRnd_of_none {s : State} (h : s.input.rnd = none) (f : Channel → State) :
    withRnd s f = .refused .omittedRnd := by simp [withRnd, h]

/-- Two masks are equal exactly when the channels are. -/
@[simp] theorem onehot_inj {i j : Channel} : onehot i = onehot j ↔ i = j := by
  revert i j; decide

theorem onehot_ne_zero (i : Channel) : onehot i ≠ 0#4 := by revert i; decide

theorem onehot_getLsbD (i j : Channel) : (onehot i).getLsbD j.val = decide (j = i) := by
  revert i j; decide

end Machine

end Sys2Proof
end

