-- ==== Sys2Proof/Laws/Debounce.lean ====
section
/-! SUPPORT. What the LED writes, the events, one debounce step and the poll pass do to each field, said once. -/

namespace Sys2Proof.Machine

theorem ledOff_eq (s : State) : ledOff s = s.setLed allOff := rfl
theorem ledAll_eq (s : State) : ledAll s = s.setLed allOn := rfl
theorem ledOne_eq (i : Channel) (s : State) : ledOne i s = s.setLed (onehot i) := rfl

theorem State.premature_iff (s : State) :
    s.premature = true ↔ s.phase = Phase.give.code ∧ s.given = false := by
  simp [State.premature]

theorem State.comparing_iff (s : State) :
    s.comparing = true ↔ s.phase = Phase.receive.code ∧ s.hit = false := by
  simp [State.comparing]

theorem eventPress_idle {i : Channel} {s : State} (h : s.phase = Phase.idle.code) :
    eventPress i s = ((s.setPhase .gameOn).setCnt 0).markPhase := if_pos h

theorem eventPress_other {i : Channel} {s : State} (h : s.phase ≠ Phase.idle.code) : eventPress i s = s := if_neg h

/-- All EventRelease can do (R86). -/
theorem eventRelease_cases (i : Channel) (s : State) :
    (s.phase = Phase.give.code ∧ s.given = false ∧ eventRelease i s = s.setPhase .lost) ∨
    (s.phase = Phase.receive.code ∧ s.hit = false ∧ s.led = onehot i ∧ eventRelease i s = s.setHit true) ∨
    (s.phase = Phase.receive.code ∧ s.hit = false ∧ s.led ≠ onehot i ∧
      eventRelease i s = (((s.setHit false).setLed allOff).setPhase .lost)) ∨
    (¬ (s.phase = Phase.give.code ∧ s.given = false) ∧ ¬ (s.phase = Phase.receive.code ∧ s.hit = false) ∧
      eventRelease i s = s) := by
  unfold eventRelease
  split
  · next h => exact .inl ⟨(s.premature_iff.1 h).1, (s.premature_iff.1 h).2, rfl⟩
  · next h =>
    rw [s.premature_iff] at h
    split
    · next h' =>
      rw [s.comparing_iff] at h'
      split
      · next hl => exact .inr (.inl ⟨h'.1, h'.2, hl, rfl⟩)
      · next hl => exact .inr (.inr (.inl ⟨h'.1, h'.2, hl, rfl⟩))
    · next h' =>
      rw [s.comparing_iff] at h'
      exact .inr (.inr (.inr ⟨h, h', rfl⟩))

/-- What an event never touches, whatever it does: used for both events. -/
structure EventFrame (s t : State) : Prop where
  deb : t.deb = s.deb
  target : t.target = s.target
  given : t.given = s.given
  tD : t.tD = s.tD
  params : t.params = s.params
  stim : t.stim = s.stim
  ticks : t.ticks = s.ticks

theorem eventPress_frame (i : Channel) (s : State) : EventFrame s (eventPress i s) := by
  unfold eventPress; split <;> constructor <;> rfl

theorem eventRelease_frame (i : Channel) (s : State) : EventFrame s (eventRelease i s) := by
  obtain ⟨-, -, h⟩ | ⟨-, -, -, h⟩ | ⟨-, -, -, h⟩ | ⟨-, -, h⟩ := eventRelease_cases i s <;> rw [h] <;> constructor <;> rfl

/-- The next debounce state of one channel: the table of R50 with the rules R65 to R72. -/
def debNext (d : DebState) (b : Bool) : DebState :=
  match d, b with
  | .down, false => .down
  | .down, true => .rising
  | .up, false => .falling
  | .up, true => .up
  | .falling, false => .down
  | .falling, true => .up
  | .rising, false => .down
  | .rising, true => .up

/-- All one debounce step can do: the register's next state, then the event of its key if it has one. -/
theorem debStep_eq (i : Channel) (s : State) :
    debStep i s =
      (if s.deb.get i = .falling ∧ s.btn i = false then eventPress i (s.setDeb i .down)
       else if s.deb.get i = .down ∧ s.btn i = true then eventRelease i (s.setDeb i .rising)
       else s.setDeb i (debNext (s.deb.get i) (s.btn i))) := by
  unfold debStep
  cases s.deb.get i <;> cases s.btn i <;> rfl

/-- What one debounce step never touches. -/
structure DebStepFrame (i : Channel) (s t : State) : Prop where
  deb : t.deb = s.deb.set i (debNext (s.deb.get i) (s.btn i))
  target : t.target = s.target
  given : t.given = s.given
  tD : t.tD = s.tD
  params : t.params = s.params
  stim : t.stim = s.stim
  ticks : t.ticks = s.ticks

theorem debStep_frame (i : Channel) (s : State) : DebStepFrame i s (debStep i s) := by
  rw [debStep_eq]
  split
  · next h =>
    have f := eventPress_frame i (s.setDeb i .down)
    exact ⟨by rw [f.deb, h.1, h.2]; rfl, f.target, f.given, f.tD, f.params, f.stim, f.ticks⟩
  · split
    · next h =>
      have f := eventRelease_frame i (s.setDeb i .rising)
      exact ⟨by rw [f.deb, h.1, h.2]; rfl, f.target, f.given, f.tD, f.params, f.stim, f.ticks⟩
    · constructor <;> rfl

/-- Equal inputs: two states that the environment drives alike and that were built alike. -/
theorem State.input_congr {s t : State} (h : t.stim = s.stim) (h' : t.ticks = s.ticks) : t.input = s.input := by
  simp only [State.input, h, h']

theorem State.now_congr {s t : State} (hp : t.params = s.params) (h : t.stim = s.stim) (h' : t.ticks = s.ticks) :
    t.now = s.now := by
  simp only [State.now, State.input_congr h h', hp]

theorem State.btn_congr {s t : State} (h : t.stim = s.stim) (h' : t.ticks = s.ticks) (i : Channel) :
    t.btn i = s.btn i := by
  simp only [State.btn, State.input_congr h h']

/-- What a poll pass never touches, and the debounce registers it leaves. -/
structure PollFrame (s t : State) : Prop where
  deb : ∀ i, t.deb.get i = debNext (s.deb.get i) (s.btn i)
  target : t.target = s.target
  given : t.given = s.given
  tD : t.tD = s.tD
  params : t.params = s.params
  stim : t.stim = s.stim
  ticks : t.ticks = s.ticks

theorem pollPass_frame (s : State) : PollFrame s (pollPass s) := by
  have f0 := debStep_frame 0 s
  have f1 := debStep_frame 1 (debStep 0 s)
  have f2 := debStep_frame 2 (debStep 1 (debStep 0 s))
  have f3 := debStep_frame 3 (debStep 2 (debStep 1 (debStep 0 s)))
  have b1 : (debStep 0 s).btn 1 = s.btn 1 := State.btn_congr f0.stim f0.ticks 1
  have b2 : (debStep 1 (debStep 0 s)).btn 2 = s.btn 2 :=
    State.btn_congr (f1.stim.trans f0.stim) (f1.ticks.trans f0.ticks) 2
  have b3 : (debStep 2 (debStep 1 (debStep 0 s))).btn 3 = s.btn 3 :=
    State.btn_congr (f2.stim.trans (f1.stim.trans f0.stim)) (f2.ticks.trans (f1.ticks.trans f0.ticks)) 3
  refine ⟨?_, ?_, ?_, ?_, ?_, ?_, ?_⟩
  · intro i
    unfold pollPass
    rw [f3.deb, b3, f2.deb, b2, f1.deb, b1, f0.deb]
    fin_cases i <;> simp [DebFile.get, DebFile.set]
  · exact f3.target.trans (f2.target.trans (f1.target.trans f0.target))
  · exact f3.given.trans (f2.given.trans (f1.given.trans f0.given))
  · exact f3.tD.trans (f2.tD.trans (f1.tD.trans f0.tD))
  · exact f3.params.trans (f2.params.trans (f1.params.trans f0.params))
  · exact f3.stim.trans (f2.stim.trans (f1.stim.trans f0.stim))
  · exact f3.ticks.trans (f2.ticks.trans (f1.ticks.trans f0.ticks))

/-- What a poll keeps if each debounce step keeps it. -/
theorem pollPass_induct {P : State → Prop} (h : ∀ i t, P t → P (debStep i t)) {s : State} (hs : P s) :
    P (pollPass s) :=
  h 3 _ (h 2 _ (h 1 _ (h 0 _ hs)))

end Sys2Proof.Machine
end

