-- ==== Sys2Proof/Laws/Handlers.lean ====
section
/-! SUPPORT. What the poll step, the phase gate, the handlers, TICK and a step can do, said once. -/

namespace Sys2Proof.Machine

/-- All the poll step can do (R60). -/
theorem pollStep_cases (t : Nat) (s : State) :
    (t ≤ s.elapsed s.tD ∧ pollStep t s = pollPass s.markPoll) ∨ (s.elapsed s.tD < t ∧ pollStep t s = s) := by
  unfold pollStep
  by_cases h : t ≤ s.elapsed s.tD
  · exact .inl ⟨h, if_pos ((s.gate_eq_true _ _).2 h)⟩
  · exact .inr ⟨Nat.lt_of_not_le h, if_neg (by rwa [s.gate_eq_true])⟩

/-- What a poll step never touches. -/
structure PollStepFrame (s t : State) : Prop where
  target : t.target = s.target
  given : t.given = s.given
  params : t.params = s.params
  stim : t.stim = s.stim
  ticks : t.ticks = s.ticks
  input : t.input = s.input
  now : t.now = s.now

theorem pollStep_frame (t : Nat) (s : State) : PollStepFrame s (pollStep t s) := by
  obtain ⟨-, h⟩ | ⟨-, h⟩ := pollStep_cases t s <;> rw [h]
  · have f := pollPass_frame s.markPoll
    exact ⟨f.target, f.given, f.params, f.stim, f.ticks, State.input_congr f.stim f.ticks,
      State.now_congr f.params f.stim f.ticks⟩
  · constructor <;> rfl

theorem phaseGuard_iff (p : Phase) (s : State) :
    phaseGuard p s = true ↔ s.phase = p.code ∧ (p = .receive → s.hit = false) := by
  simp [phaseGuard]; tauto

/-- All the phase gate can do (R61). -/
theorem phaseGate_cases (p : Phase) (s : State) :
    (s.phase = p.code ∧ (p = .receive → s.hit = false) ∧ tAction s.params p ≤ s.elapsed s.tP ∧
      phaseGate p s = phaseAction p s.markPhase) ∨
    (¬ (s.phase = p.code ∧ (p = .receive → s.hit = false) ∧ tAction s.params p ≤ s.elapsed s.tP) ∧
      phaseGate p s = .next s) := by
  have e : (phaseGuard p s && s.gate s.tP (tAction s.params p)) = true ↔
      (s.phase = p.code ∧ (p = .receive → s.hit = false) ∧ tAction s.params p ≤ s.elapsed s.tP) := by
    rw [Bool.and_eq_true, phaseGuard_iff, s.gate_eq_true, and_assoc]
  unfold phaseGate
  by_cases h : (phaseGuard p s && s.gate s.tP (tAction s.params p)) = true
  · rw [if_pos h]
    obtain ⟨h1, h2, h3⟩ := e.1 h
    exact .inl ⟨h1, h2, h3, rfl⟩
  · rw [if_neg h]
    exact .inr ⟨fun h' => h (e.2 h'), rfl⟩

@[simp] theorem clearGivenOnGive_eq (s : State) :
    s.clearGivenOnGive = s.setGiven (s.given && !s.params.givenClearOnGive) := by
  unfold State.clearGivenOnGive
  cases h : s.params.givenClearOnGive <;> simp [State.setGiven]

theorem gameOnAction_toggle {s : State} (h : s.cnt < s.params.nGameOnToggles) :
    gameOnAction s = .next ((s.setLed (if s.cnt % 2 = 1 then allOff else allOn)).setCnt (s.cnt + 1)) := by
  unfold gameOnAction toggleBit
  rw [if_pos h]
  by_cases hc : s.cnt % 2 = 1 <;> simp [hc, ledOff, ledAll]

theorem gameOnAction_exit {s : State} {r : Channel} (h : ¬ s.cnt < s.params.nGameOnToggles)
    (hr : s.input.rnd = some r) :
    gameOnAction s = .next ((((s.setCnt 0).setTarget r).setLed allOff).setGiven
      (s.given && !s.params.givenClearOnGive) |>.setPhase .give) := by
  unfold gameOnAction
  rw [if_neg h, withRnd_of_some hr, clearGivenOnGive_eq]
  rfl

theorem lostAction_toggle {s : State} (h : s.cnt < s.params.nLostToggles) :
    lostAction s = .next ((s.setLed (if s.cnt % 2 = 1 then allOff else onehot s.target)).setCnt (s.cnt + 1)) := by
  unfold lostAction toggleBit
  rw [if_pos h]
  by_cases hc : s.cnt % 2 = 1 <;> simp [hc, ledOff, ledOne]

theorem lostAction_exit {s : State} (h : ¬ s.cnt < s.params.nLostToggles) :
    lostAction s = .next ((((s.setCnt 0).markPoll).setLed allOff).setPhase .idle) := by
  unfold lostAction
  rw [if_neg h]; rfl

/-- All the Receive phase step can do (R82). -/
theorem receiveStep_cases (s : State) :
    (s.phase = Phase.receive.code ∧ s.hit = true ∧ receiveStep s = .next ((s.setLed allOff).setPhase .gameOn)) ∨
    (s.phase = Phase.receive.code ∧ s.hit = false ∧ receiveStep s = phaseGate .receive s) ∨
    (s.phase ≠ Phase.receive.code ∧ receiveStep s = .next s) := by
  unfold receiveStep
  by_cases h : s.phase = Phase.receive.code
  · rw [if_pos h]
    cases hh : s.hit
    · exact .inr (.inl ⟨h, rfl, rfl⟩)
    · exact .inl ⟨h, rfl, rfl⟩
  · rw [if_neg h]; exact .inr (.inr ⟨h, rfl⟩)

/-- The handlers the five legal phases select (R77). -/
theorem handler_idle {s : State} (h : s.phase = Phase.idle.code) : handler s = execPhIdle s := by
  unfold handler; rw [h]; rfl
theorem handler_gameOn {s : State} (h : s.phase = Phase.gameOn.code) : handler s = execPhGameOn s := by
  unfold handler; rw [h]; rfl
theorem handler_give {s : State} (h : s.phase = Phase.give.code) : handler s = execPhGive s := by
  unfold handler; rw [h]; rfl
theorem handler_receive {s : State} (h : s.phase = Phase.receive.code) : handler s = execPhReceive s := by
  unfold handler; rw [h]; rfl
theorem handler_lost {s : State} (h : s.phase = Phase.lost.code) : handler s = execPhLost s := by
  unfold handler; rw [h]; rfl

/-- The handler is exec of the operation the phase key selects (R77, R46). -/
theorem handler_eq_exec (s : State) : handler s = exec (decodePh s.phase) s := by
  have e : ∀ c : BitVec 3, c = 0 ∨ c = 1 ∨ c = 2 ∨ c = 3 ∨ c = 4 ∨ c = 5 ∨ c = 6 ∨ c = 7 := by decide
  unfold handler
  obtain h | h | h | h | h | h | h | h := e s.phase <;> rw [h] <;> rfl

/-- All an action of the phase gate can refuse for: a line that omits `rnd` on a tick that reads it. -/
theorem phaseAction_refused {p : Phase} {s : State} {r : Refusal} (h : phaseAction p s = .refused r) :
    r = .omittedRnd ∧ s.input.rnd = none := by
  cases p with
  | idle =>
    obtain ⟨c, -, e⟩ | ⟨hn, e⟩ := withRnd_cases s fun r => ledOne r s
    · rw [show phaseAction .idle s = _ from e] at h; cases h
    · rw [show phaseAction .idle s = _ from e] at h; cases h; exact ⟨rfl, hn⟩
  | gameOn =>
    by_cases hc : s.cnt < s.params.nGameOnToggles
    · rw [show phaseAction .gameOn s = _ from gameOnAction_toggle hc] at h; cases h
    · cases hr : s.input.rnd with
      | some c => rw [show phaseAction .gameOn s = _ from gameOnAction_exit hc hr] at h; cases h
      | none =>
        change gameOnAction s = _ at h
        unfold gameOnAction at h
        rw [if_neg hc, withRnd_of_none hr] at h
        cases h; exact ⟨rfl, rfl⟩
  | give => cases h
  | receive => cases h
  | lost =>
    by_cases hc : s.cnt < s.params.nLostToggles
    · rw [show phaseAction .lost s = _ from lostAction_toggle hc] at h; cases h
    · rw [show phaseAction .lost s = _ from lostAction_exit hc] at h; cases h

theorem phaseGate_refused {p : Phase} {s : State} {r : Refusal} (h : phaseGate p s = .refused r) :
    r = .omittedRnd ∧ s.input.rnd = none := by
  obtain ⟨-, -, -, e⟩ | ⟨-, e⟩ := phaseGate_cases p s <;> rw [e] at h
  · exact phaseAction_refused (s := s.markPhase) h
  · cases h

theorem receiveStep_refused {s : State} {r : Refusal} (h : receiveStep s = .refused r) :
    r = .omittedRnd ∧ s.input.rnd = none := by
  obtain ⟨-, -, e⟩ | ⟨-, -, e⟩ | ⟨-, e⟩ := receiveStep_cases s <;> rw [e] at h
  · cases h
  · exact phaseGate_refused h
  · cases h

/-- What a phase action never touches. -/
structure ActionFrame (s t : State) : Prop where
  deb : t.deb = s.deb
  params : t.params = s.params
  stim : t.stim = s.stim
  ticks : t.ticks = s.ticks
  tP : t.tP = s.tP

theorem phaseAction_frame {p : Phase} {s t : State} (h : phaseAction p s = .next t) : ActionFrame s t := by
  cases p with
  | idle =>
    obtain ⟨c, -, e⟩ | ⟨-, e⟩ := withRnd_cases s fun r => ledOne r s
    · rw [show phaseAction .idle s = _ from e] at h; cases h; constructor <;> rfl
    · rw [show phaseAction .idle s = _ from e] at h; cases h
  | gameOn =>
    by_cases hc : s.cnt < s.params.nGameOnToggles
    · rw [show phaseAction .gameOn s = _ from gameOnAction_toggle hc] at h; cases h; constructor <;> rfl
    · cases hr : s.input.rnd with
      | some c =>
        rw [show phaseAction .gameOn s = _ from gameOnAction_exit hc hr] at h; cases h; constructor <;> rfl
      | none =>
        change gameOnAction s = _ at h
        unfold gameOnAction at h
        rw [if_neg hc, withRnd_of_none hr] at h
        cases h
  | give => cases h; constructor <;> rfl
  | receive => cases h; constructor <;> rfl
  | lost =>
    by_cases hc : s.cnt < s.params.nLostToggles
    · rw [show phaseAction .lost s = _ from lostAction_toggle hc] at h; cases h; constructor <;> rfl
    · rw [show phaseAction .lost s = _ from lostAction_exit hc] at h; cases h; constructor <;> rfl

/-- The phase gate with the mark write: debounce registers, parameters and inputs stay. -/
structure GateFrame (s t : State) : Prop where
  deb : t.deb = s.deb
  params : t.params = s.params
  stim : t.stim = s.stim
  ticks : t.ticks = s.ticks
  tP : t.tP = s.tP ∨ t.tP = s.now

theorem phaseGate_frame {p : Phase} {s t : State} (h : phaseGate p s = .next t) : GateFrame s t := by
  obtain ⟨-, -, -, e⟩ | ⟨-, e⟩ := phaseGate_cases p s <;> rw [e] at h
  · have f := phaseAction_frame h
    exact ⟨f.deb, f.params, f.stim, f.ticks, .inr f.tP⟩
  · cases h; exact ⟨rfl, rfl, rfl, rfl, .inl rfl⟩

theorem receiveStep_frame {s t : State} (h : receiveStep s = .next t) : GateFrame s t := by
  obtain ⟨-, -, e⟩ | ⟨-, -, e⟩ | ⟨-, e⟩ := receiveStep_cases s <;> rw [e] at h
  · cases h; exact ⟨rfl, rfl, rfl, rfl, .inl rfl⟩
  · exact phaseGate_frame h
  · cases h; exact ⟨rfl, rfl, rfl, rfl, .inl rfl⟩

/-- A state with an illegal phase is refused (R84). -/
theorem handler_illegal {s : State} (h : phaseOf s.phase = none) : handler s = .refused (.illegalPhase s.phase) := by
  unfold handler
  obtain e | e | e := phaseOf_eq_none.1 h <;> rw [e] <;> simp [execPhIllegal101, execPhIllegal110, execPhIllegal111, e]

theorem execTick_badParams {s : State} (h : s.params.wf = false) :
    ∃ n, execTick s = .refused (.badParameter n) := by
  obtain ⟨n, hn⟩ := (checkParams_isSome_iff s.params).2 h
  exact ⟨n, by simp [execTick, hn]⟩

theorem execTick_reset {s : State} (h : s.params.wf = true) (hr : s.rst = true) :
    execTick s = .next s.resetRegs := by
  simp [execTick, (checkParams_eq_none_iff _).2 h, hr]

theorem execTick_run {s : State} (h : s.params.wf = true) (hr : s.rst = false) : execTick s = handler s := by
  simp [execTick, (checkParams_eq_none_iff _).2 h, hr]

@[simp] theorem afterTick_next (t : State) : afterTick (.next t) = .next t.advance := rfl
@[simp] theorem afterTick_refused (r : Refusal) : afterTick (.refused r) = .refused r := rfl

/-- All a step that goes on can be: a tick that went on, its inputs used up. -/
theorem step_eq_next {s t : State} (h : step s = .next t) : ∃ u, execTick s = .next u ∧ t = u.advance := by
  have e : step s = afterTick (execTick s) := rfl
  rw [e] at h
  cases hx : execTick s with
  | next u => rw [hx] at h; cases h; exact ⟨u, rfl, rfl⟩
  | fault f => cases f
  | refused r => rw [hx] at h; cases h

/-- All a tick that goes on can be: a reset, or the handler of a legal phase. -/
theorem execTick_eq_next {s u : State} (h : execTick s = .next u) :
    s.params.wf = true ∧ ((s.rst = true ∧ u = s.resetRegs) ∨
      (s.rst = false ∧ handler s = .next u ∧ ∃ p : Phase, s.phase = p.code)) := by
  cases hp : s.params.wf with
  | false =>
    obtain ⟨n, hn⟩ := execTick_badParams hp
    rw [hn] at h; cases h
  | true =>
    refine ⟨rfl, ?_⟩
    cases hr : s.rst with
    | true => rw [execTick_reset hp hr] at h; cases h; exact .inl ⟨rfl, rfl⟩
    | false =>
      rw [execTick_run hp hr] at h
      refine .inr ⟨rfl, h, ?_⟩
      cases ho : phaseOf s.phase with
      | none => rw [handler_illegal ho] at h; cases h
      | some p => exact ⟨p, phaseOf_eq_some.1 ho⟩

end Sys2Proof.Machine
end

