-- ==== Sys2Proof/Laws/PerInstr.lean ====
section
/-! SUPPORT. A statement about every operation as syntax: the key word the encoder gives it is well formed (spec/30 R46),
and the encoder gives one exactly to the operations that have a key. -/

namespace Sys2Proof.Laws

/-- The operation's key word, if it has one, fits its format; it has one exactly when it is keyed. -/
def KeyFits.Statement (i : Instr) : Prop :=
  (encode i).isSome = i.keyed ∧ ∀ k, encode i = some k → k.wf = true

theorem KeyFits.debDown0 (i : Channel) : KeyFits.Statement (.debDown0 i) := ⟨rfl, by rintro k ⟨⟩; rfl⟩
theorem KeyFits.debDown1 (i : Channel) : KeyFits.Statement (.debDown1 i) := ⟨rfl, by rintro k ⟨⟩; rfl⟩
theorem KeyFits.debUp0 (i : Channel) : KeyFits.Statement (.debUp0 i) := ⟨rfl, by rintro k ⟨⟩; rfl⟩
theorem KeyFits.debUp1 (i : Channel) : KeyFits.Statement (.debUp1 i) := ⟨rfl, by rintro k ⟨⟩; rfl⟩
theorem KeyFits.debFall0 (i : Channel) : KeyFits.Statement (.debFall0 i) := ⟨rfl, by rintro k ⟨⟩; rfl⟩
theorem KeyFits.debFall1 (i : Channel) : KeyFits.Statement (.debFall1 i) := ⟨rfl, by rintro k ⟨⟩; rfl⟩
theorem KeyFits.debRise0 (i : Channel) : KeyFits.Statement (.debRise0 i) := ⟨rfl, by rintro k ⟨⟩; rfl⟩
theorem KeyFits.debRise1 (i : Channel) : KeyFits.Statement (.debRise1 i) := ⟨rfl, by rintro k ⟨⟩; rfl⟩
theorem KeyFits.evtPress (i : Channel) : KeyFits.Statement (.evtPress i) := ⟨rfl, by rintro k ⟨⟩; rfl⟩
theorem KeyFits.evtRelease (i : Channel) : KeyFits.Statement (.evtRelease i) := ⟨rfl, by rintro k ⟨⟩; rfl⟩
theorem KeyFits.phIdle : KeyFits.Statement .phIdle := ⟨rfl, by rintro k ⟨⟩; rfl⟩
theorem KeyFits.phGameOn : KeyFits.Statement .phGameOn := ⟨rfl, by rintro k ⟨⟩; rfl⟩
theorem KeyFits.phGive : KeyFits.Statement .phGive := ⟨rfl, by rintro k ⟨⟩; rfl⟩
theorem KeyFits.phReceive : KeyFits.Statement .phReceive := ⟨rfl, by rintro k ⟨⟩; rfl⟩
theorem KeyFits.phLost : KeyFits.Statement .phLost := ⟨rfl, by rintro k ⟨⟩; rfl⟩
theorem KeyFits.phIllegal101 : KeyFits.Statement .phIllegal101 := ⟨rfl, by rintro k ⟨⟩; rfl⟩
theorem KeyFits.phIllegal110 : KeyFits.Statement .phIllegal110 := ⟨rfl, by rintro k ⟨⟩; rfl⟩
theorem KeyFits.phIllegal111 : KeyFits.Statement .phIllegal111 := ⟨rfl, by rintro k ⟨⟩; rfl⟩
theorem KeyFits.gatePoll : KeyFits.Statement .gatePoll := ⟨rfl, by rintro k ⟨⟩; rfl⟩
theorem KeyFits.gatePhase : KeyFits.Statement .gatePhase := ⟨rfl, by rintro k ⟨⟩; rfl⟩
theorem KeyFits.muxHold : KeyFits.Statement .muxHold := ⟨rfl, by rintro k ⟨⟩; rfl⟩
theorem KeyFits.muxOff : KeyFits.Statement .muxOff := ⟨rfl, by rintro k ⟨⟩; rfl⟩
theorem KeyFits.muxAll : KeyFits.Statement .muxAll := ⟨rfl, by rintro k ⟨⟩; rfl⟩
theorem KeyFits.muxRsvd : KeyFits.Statement .muxRsvd := ⟨rfl, by rintro k ⟨⟩; rfl⟩
theorem KeyFits.muxOne (idx : Channel) : KeyFits.Statement (.muxOne idx) :=
  ⟨rfl, by rintro k ⟨⟩; fin_cases idx <;> rfl⟩
theorem KeyFits.tick : KeyFits.Statement .tick := ⟨rfl, by rintro k ⟨⟩⟩
theorem KeyFits.poll : KeyFits.Statement .poll := ⟨rfl, by rintro k ⟨⟩⟩

end Sys2Proof.Laws
end

