-- ==== Sys2Proof/Laws/Polls.lean ====
section
/-! SUPPORT. What a poll pass does to the game registers, phase by phase (spec/42 R85, R86, spec/41 R73), and the poll
step with its gate open or closed. -/

namespace Sys2Proof.Machine

/-- An induction over the four steps of a poll: at channel `i` the register and the sample of `i` are still those the
poll began with. -/
theorem pollPass_steps {s : State} {P : Nat → State → Prop} (h0 : P 0 s)
    (h : ∀ (i : Channel) (t : State), P i.val t → t.deb.get i = s.deb.get i → t.btn i = s.btn i → t.now = s.now →
      P (i.val + 1) (debStep i t)) : P 4 (pollPass s) := by
  have f0 := debStep_frame 0 s
  have f1 := debStep_frame 1 (debStep 0 s)
  have f2 := debStep_frame 2 (debStep 1 (debStep 0 s))
  have b1 : (debStep 0 s).btn 1 = s.btn 1 := State.btn_congr f0.stim f0.ticks 1
  have b2 : (debStep 1 (debStep 0 s)).btn 2 = s.btn 2 :=
    State.btn_congr (f1.stim.trans f0.stim) (f1.ticks.trans f0.ticks) 2
  have b3 : (debStep 2 (debStep 1 (debStep 0 s))).btn 3 = s.btn 3 :=
    State.btn_congr (f2.stim.trans (f1.stim.trans f0.stim)) (f2.ticks.trans (f1.ticks.trans f0.ticks)) 3
  have n1 : (debStep 0 s).now = s.now := State.now_congr f0.params f0.stim f0.ticks
  have n2 : (debStep 1 (debStep 0 s)).now = s.now := (State.now_congr f1.params f1.stim f1.ticks).trans n1
  have n3 : (debStep 2 (debStep 1 (debStep 0 s))).now = s.now :=
    (State.now_congr f2.params f2.stim f2.ticks).trans n2
  refine h 3 _ (h 2 _ (h 1 _ (h 0 _ h0 rfl rfl rfl) ?_ b1 n1) ?_ b2 n2) ?_ b3 n3
  · rw [f0.deb]; rfl
  · rw [f1.deb, f0.deb]; rfl
  · rw [f2.deb, f1.deb, f0.deb]; rfl

/-- The game registers an event may write, unchanged. -/
structure SameGame (s t : State) : Prop where
  phase : t.phase = s.phase
  hit : t.hit = s.hit
  cnt : t.cnt = s.cnt
  tP : t.tP = s.tP
  led : t.led = s.led

theorem SameGame.rfl' (s : State) : SameGame s s := ⟨rfl, rfl, rfl, rfl, rfl⟩

theorem SameGame.trans {s t u : State} (a : SameGame s t) (b : SameGame t u) : SameGame s u :=
  ⟨b.phase.trans a.phase, b.hit.trans a.hit, b.cnt.trans a.cnt, b.tP.trans a.tP, b.led.trans a.led⟩

/-- A debounce step whose event, if any, finds nothing to do changes no game register. -/
theorem debStep_sameGame {i : Channel} {s : State}
    (hp : s.deb.get i = .falling → s.btn i = false → s.phase ≠ Phase.idle.code)
    (hr : s.deb.get i = .down → s.btn i = true →
      ¬ (s.phase = Phase.give.code ∧ s.given = false) ∧ ¬ (s.phase = Phase.receive.code ∧ s.hit = false)) :
    SameGame s (debStep i s) := by
  rw [debStep_eq]
  split
  · next h => rw [eventPress_other (by exact hp h.1 h.2)]; constructor <;> rfl
  · split
    · next h =>
      obtain ⟨h1, h2⟩ := hr h.1 h.2
      obtain ⟨h3, h4, -⟩ | ⟨h3, h4, -⟩ | ⟨h3, h4, -⟩ | ⟨-, -, e⟩ := eventRelease_cases i (s.setDeb i .rising)
      · exact absurd ⟨h3, h4⟩ h1
      · exact absurd ⟨h3, h4⟩ h2
      · exact absurd ⟨h3, h4⟩ h2
      · rw [e]; constructor <;> rfl
    · constructor <;> rfl

/-- In GameOn, in Lost, in Give with the mole given and in Receive with a hit, a poll changes no game register. -/
theorem pollPass_quiet {s : State} (h1 : s.phase ≠ Phase.idle.code)
    (h2 : ¬ (s.phase = Phase.give.code ∧ s.given = false)) (h3 : ¬ (s.phase = Phase.receive.code ∧ s.hit = false)) :
    SameGame s (pollPass s) := by
  refine (pollPass_induct (P := fun t => SameGame s t ∧ t.given = s.given) ?_ ⟨SameGame.rfl' s, rfl⟩).1
  rintro i t ⟨g, hg⟩
  refine ⟨g.trans (debStep_sameGame (fun _ _ => ?_) fun _ _ => ?_), (debStep_frame i t).given.trans hg⟩
  · rw [g.phase]; exact h1
  · rw [g.phase, hg, g.hit]; exact ⟨h2, h3⟩

/-- A poll in Idle: either no press was due and no game register changes, or one was and the round has started. -/
theorem pollPass_idle {s : State} (h : s.phase = Phase.idle.code) :
    ((∀ c, ¬ (s.deb.get c = .falling ∧ s.btn c = false)) ∧ SameGame s (pollPass s)) ∨
    ((∃ c, s.deb.get c = .falling ∧ s.btn c = false) ∧ (pollPass s).phase = Phase.gameOn.code ∧
      (pollPass s).cnt = 0 ∧ (pollPass s).tP = s.now ∧ (pollPass s).hit = s.hit ∧ (pollPass s).led = s.led) := by
  let P : Nat → State → Prop := fun k t =>
    ((∀ c : Channel, c.val < k → ¬ (s.deb.get c = .falling ∧ s.btn c = false)) ∧ SameGame s t) ∨
    ((∃ c, s.deb.get c = .falling ∧ s.btn c = false) ∧ t.phase = Phase.gameOn.code ∧ t.cnt = 0 ∧ t.tP = s.now ∧
      t.hit = s.hit ∧ t.led = s.led)
  have key : P 4 (pollPass s) := by
    refine pollPass_steps (.inl ⟨fun c hc => absurd hc (Nat.not_lt_zero _), SameGame.rfl' s⟩) ?_
    rintro i t (⟨hn, g⟩ | ⟨hc, hp, h1, h2, h3, h4⟩) hd hb hw
    · by_cases hi : s.deb.get i = .falling ∧ s.btn i = false
      · right
        refine ⟨⟨i, hi⟩, ?_⟩
        rw [debStep_eq, if_pos (by rw [hd, hb]; exact hi), eventPress_idle (by exact g.phase.trans h)]
        exact ⟨rfl, by simp [wrap], hw, g.hit, g.led⟩
      · left
        refine ⟨fun c hc => ?_, g.trans (debStep_sameGame (fun h1 h2 => ?_) fun _ _ => ?_)⟩
        · rcases Nat.lt_succ_iff_lt_or_eq.1 hc with hc | hc
          · exact hn c hc
          · rw [Fin.ext hc]; exact hi
        · rw [hd] at h1; rw [hb] at h2; exact absurd ⟨h1, h2⟩ hi
        · rw [g.phase, h]; simp
    · right
      have q := debStep_sameGame (i := i) (s := t) (fun _ _ => by rw [hp]; simp) fun _ _ => by rw [hp]; simp
      exact ⟨hc, q.phase.trans hp, q.cnt.trans h1, q.tP.trans h2, q.hit.trans h3, q.led.trans h4⟩
  rcases key with ⟨hn, g⟩ | h'
  · exact .inl ⟨fun c => hn c c.isLt, g⟩
  · exact .inr h'

/-- A poll in Give before the mole is given: either no release was due and no game register changes, or one was and
the round is lost, nothing but the phase being written. -/
theorem pollPass_give {s : State} (h : s.phase = Phase.give.code) (hg : s.given = false) :
    ((∀ c, ¬ (s.deb.get c = .down ∧ s.btn c = true)) ∧ SameGame s (pollPass s)) ∨
    ((∃ c, s.deb.get c = .down ∧ s.btn c = true) ∧ (pollPass s).phase = Phase.lost.code ∧
      (pollPass s).cnt = s.cnt ∧ (pollPass s).tP = s.tP ∧ (pollPass s).hit = s.hit ∧ (pollPass s).led = s.led) := by
  let P : Nat → State → Prop := fun k t => t.given = s.given ∧
    (((∀ c : Channel, c.val < k → ¬ (s.deb.get c = .down ∧ s.btn c = true)) ∧ SameGame s t) ∨
    ((∃ c, s.deb.get c = .down ∧ s.btn c = true) ∧ t.phase = Phase.lost.code ∧ t.cnt = s.cnt ∧ t.tP = s.tP ∧
      t.hit = s.hit ∧ t.led = s.led))
  have key : P 4 (pollPass s) := by
    refine pollPass_steps ⟨rfl, .inl ⟨fun c hc => absurd hc (Nat.not_lt_zero _), SameGame.rfl' s⟩⟩ ?_
    rintro i t ⟨hgt, ⟨hn, g⟩ | ⟨hc, hp, h1, h2, h3, h4⟩⟩ hd hb -
    · refine ⟨(debStep_frame i t).given.trans hgt, ?_⟩
      by_cases hi : s.deb.get i = .down ∧ s.btn i = true
      · right
        refine ⟨⟨i, hi⟩, ?_⟩
        rw [debStep_eq, if_neg (by rw [hd, hi.1]; simp), if_pos (by rw [hd, hb]; exact hi)]
        obtain ⟨-, -, e⟩ | ⟨h', -⟩ | ⟨h', -⟩ | ⟨h', -⟩ := eventRelease_cases i (t.setDeb i .rising)
        · rw [e]; exact ⟨rfl, g.cnt, g.tP, g.hit, g.led⟩
        · rw [State.setDeb_phase, g.phase, h] at h'; simp at h'
        · rw [State.setDeb_phase, g.phase, h] at h'; simp at h'
        · exact absurd ⟨g.phase.trans h, hgt.trans hg⟩ h'
      · left
        refine ⟨fun c hc => ?_, g.trans (debStep_sameGame (fun _ _ => ?_) fun h1 h2 => ?_)⟩
        · rcases Nat.lt_succ_iff_lt_or_eq.1 hc with hc | hc
          · exact hn c hc
          · rw [Fin.ext hc]; exact hi
        · rw [g.phase, h]; simp
        · rw [hd] at h1; rw [hb] at h2; exact absurd ⟨h1, h2⟩ hi
    · refine ⟨(debStep_frame i t).given.trans hgt, .inr ?_⟩
      have q := debStep_sameGame (i := i) (s := t) (fun _ _ => by rw [hp]; simp) fun _ _ => by rw [hp]; simp
      exact ⟨hc, q.phase.trans hp, q.cnt.trans h1, q.tP.trans h2, q.hit.trans h3, q.led.trans h4⟩
  rcases key.2 with ⟨hn, g⟩ | h'
  · exact .inl ⟨fun c => hn c c.isLt, g⟩
  · exact .inr h'

/-- A poll in Receive before a hit: no release was due and no game register changes; or the lowest channel with a
release due decides, a hit if it is the lit one and a loss otherwise. -/
theorem pollPass_receive {s : State} (h : s.phase = Phase.receive.code) (hh : s.hit = false) :
    ((∀ c, ¬ (s.deb.get c = .down ∧ s.btn c = true)) ∧ SameGame s (pollPass s)) ∨
    (∃ c, (s.deb.get c = .down ∧ s.btn c = true) ∧ (∀ j < c, ¬ (s.deb.get j = .down ∧ s.btn j = true)) ∧
      (pollPass s).cnt = s.cnt ∧ (pollPass s).tP = s.tP ∧
      ((s.led = onehot c ∧ (pollPass s).phase = Phase.receive.code ∧ (pollPass s).hit = true ∧
          (pollPass s).led = s.led) ∨
        (s.led ≠ onehot c ∧ (pollPass s).phase = Phase.lost.code ∧ (pollPass s).hit = false ∧
          (pollPass s).led = 0b0000#4))) := by
  let P : Nat → State → Prop := fun k t =>
    ((∀ c : Channel, c.val < k → ¬ (s.deb.get c = .down ∧ s.btn c = true)) ∧ SameGame s t) ∨
    (∃ c, (s.deb.get c = .down ∧ s.btn c = true) ∧ (∀ j < c, ¬ (s.deb.get j = .down ∧ s.btn j = true)) ∧
      t.cnt = s.cnt ∧ t.tP = s.tP ∧
      ((s.led = onehot c ∧ t.phase = Phase.receive.code ∧ t.hit = true ∧ t.led = s.led) ∨
        (s.led ≠ onehot c ∧ t.phase = Phase.lost.code ∧ t.hit = false ∧ t.led = 0b0000#4)))
  have key : P 4 (pollPass s) := by
    refine pollPass_steps (.inl ⟨fun c hc => absurd hc (Nat.not_lt_zero _), SameGame.rfl' s⟩) ?_
    rintro i t (⟨hn, g⟩ | ⟨c, hc, hl, h1, h2, h3⟩) hd hb -
    · by_cases hi : s.deb.get i = .down ∧ s.btn i = true
      · right
        refine ⟨i, hi, hn, ?_⟩
        rw [debStep_eq, if_neg (by rw [hd, hi.1]; simp), if_pos (by rw [hd, hb]; exact hi)]
        obtain ⟨h', -⟩ | ⟨-, -, hl, e⟩ | ⟨-, -, hl, e⟩ | ⟨-, h', -⟩ := eventRelease_cases i (t.setDeb i .rising)
        · rw [State.setDeb_phase, g.phase, h] at h'; simp at h'
        · rw [e]
          exact ⟨g.cnt, g.tP, .inl ⟨g.led.symm.trans hl, g.phase.trans h, rfl, g.led⟩⟩
        · rw [e]
          exact ⟨g.cnt, g.tP, .inr ⟨fun e' => hl (g.led.trans e'), rfl, rfl, rfl⟩⟩
        · exact absurd ⟨g.phase.trans h, g.hit.trans hh⟩ h'
      · left
        refine ⟨fun c hc => ?_, g.trans (debStep_sameGame (fun _ _ => ?_) fun h1 h2 => ?_)⟩
        · rcases Nat.lt_succ_iff_lt_or_eq.1 hc with hc | hc
          · exact hn c hc
          · rw [Fin.ext hc]; exact hi
        · rw [g.phase, h]; simp
        · rw [hd] at h1; rw [hb] at h2; exact absurd ⟨h1, h2⟩ hi
    · right
      rcases h3 with ⟨e, hp, h4, h5⟩ | ⟨e, hp, h4, h5⟩
      · have q := debStep_sameGame (i := i) (s := t) (fun _ _ => by rw [hp]; simp) fun _ _ => by rw [hp, h4]; simp
        exact ⟨c, hc, hl, q.cnt.trans h1, q.tP.trans h2,
          .inl ⟨e, q.phase.trans hp, q.hit.trans h4, q.led.trans h5⟩⟩
      · have q := debStep_sameGame (i := i) (s := t) (fun _ _ => by rw [hp]; simp) fun _ _ => by rw [hp]; simp
        exact ⟨c, hc, hl, q.cnt.trans h1, q.tP.trans h2,
          .inr ⟨e, q.phase.trans hp, q.hit.trans h4, q.led.trans h5⟩⟩
  rcases key with ⟨hn, g⟩ | h'
  · exact .inl ⟨fun c => hn c c.isLt, g⟩
  · exact .inr h'

theorem pollStep_closed {n : Nat} {s : State} (h : s.elapsed s.tD < n) : pollStep n s = s := by
  obtain ⟨h', -⟩ | ⟨-, h'⟩ := pollStep_cases n s
  · exact absurd h' (Nat.not_le.2 h)
  · exact h'

theorem pollStep_open {n : Nat} {s : State} (h : n ≤ s.elapsed s.tD) : pollStep n s = pollPass s.markPoll := by
  obtain ⟨-, h'⟩ | ⟨h', -⟩ := pollStep_cases n s
  · exact h'
  · exact absurd h (Nat.not_le.2 h')

/-- A poll step of a phase whose events do nothing. -/
theorem pollStep_quiet {n : Nat} {s : State} (h1 : s.phase ≠ Phase.idle.code)
    (h2 : ¬ (s.phase = Phase.give.code ∧ s.given = false)) (h3 : ¬ (s.phase = Phase.receive.code ∧ s.hit = false)) :
    SameGame s (pollStep n s) := by
  obtain ⟨-, e⟩ | ⟨-, e⟩ := pollStep_cases n s <;> rw [e]
  · have g := pollPass_quiet (s := s.markPoll) h1 h2 h3
    exact ⟨g.phase, g.hit, g.cnt, g.tP, g.led⟩
  · exact SameGame.rfl' s

/-- The mark of the poll gate after a poll step. -/
theorem pollStep_tD (n : Nat) (s : State) :
    (n ≤ s.elapsed s.tD ∧ (pollStep n s).tD = s.now) ∨ (s.elapsed s.tD < n ∧ (pollStep n s).tD = s.tD) := by
  obtain ⟨h, e⟩ | ⟨h, e⟩ := pollStep_cases n s <;> rw [e]
  · exact .inl ⟨h, (pollPass_frame s.markPoll).tD⟩
  · exact .inr ⟨h, rfl⟩

/-- All a poll step can do to the game registers: nothing; start the round (R85); lose it on a premature release; decide it
in Receive (R86). -/
inductive PollEffect (n : Nat) (p : Phase) (s t : State) : Prop
  | quiet (g : SameGame s t)
  | started (hp : p = .idle) (hn : n ≤ s.elapsed s.tD) (c : Channel) (hd : s.deb.get c = .falling)
      (hb : s.btn c = false) (phase : t.phase = Phase.gameOn.code) (cnt : t.cnt = 0) (tP : t.tP = s.now)
      (hit : t.hit = s.hit) (led : t.led = s.led)
  | premature (hp : p = .give) (hg : s.given = false) (hn : n ≤ s.elapsed s.tD) (c : Channel)
      (hd : s.deb.get c = .down) (hb : s.btn c = true) (phase : t.phase = Phase.lost.code) (cnt : t.cnt = s.cnt)
      (tP : t.tP = s.tP) (hit : t.hit = s.hit) (led : t.led = s.led)
  | hit (hp : p = .receive) (hh : s.hit = false) (hn : n ≤ s.elapsed s.tD) (c : Channel)
      (hd : s.deb.get c = .down) (hb : s.btn c = true) (hl : s.led = onehot c) (phase : t.phase = Phase.receive.code)
      (cnt : t.cnt = s.cnt) (tP : t.tP = s.tP) (hit : t.hit = true) (led : t.led = s.led)
  | wrong (hp : p = .receive) (hh : s.hit = false) (hn : n ≤ s.elapsed s.tD) (c : Channel)
      (hd : s.deb.get c = .down) (hb : s.btn c = true) (hl : s.led ≠ onehot c) (phase : t.phase = Phase.lost.code)
      (cnt : t.cnt = s.cnt) (tP : t.tP = s.tP) (hit : t.hit = false) (led : t.led = 0b0000#4)

theorem pollStep_effect {p : Phase} {s : State} (h : s.phase = p.code) (n : Nat) :
    PollEffect n p s (pollStep n s) := by
  obtain ⟨hn, e⟩ | ⟨-, e⟩ := pollStep_cases n s <;> rw [e]
  · have lift : SameGame s.markPoll (pollPass s.markPoll) → SameGame s (pollPass s.markPoll) :=
      fun g => ⟨g.phase, g.hit, g.cnt, g.tP, g.led⟩
    by_cases hi : p = .idle
    · obtain ⟨-, g⟩ | ⟨⟨c, hd, hb⟩, h1, h2, h3, h4, h5⟩ := pollPass_idle (s := s.markPoll) (by rw [← hi]; exact h)
      · exact .quiet (lift g)
      · exact .started hi hn c hd hb h1 h2 h3 h4 h5
    · by_cases hg : p = .give ∧ s.given = false
      · obtain ⟨-, g⟩ | ⟨⟨c, hd, hb⟩, h1, h2, h3, h4, h5⟩ :=
          pollPass_give (s := s.markPoll) (by rw [← hg.1]; exact h) hg.2
        · exact .quiet (lift g)
        · exact .premature hg.1 hg.2 hn c hd hb h1 h2 h3 h4 h5
      · by_cases hr : p = .receive ∧ s.hit = false
        · obtain ⟨-, g⟩ | ⟨c, ⟨hd, hb⟩, -, h1, h2, ⟨e, h3, h4, h5⟩ | ⟨e, h3, h4, h5⟩⟩ :=
            pollPass_receive (s := s.markPoll) (by rw [← hr.1]; exact h) hr.2
          · exact .quiet (lift g)
          · exact .hit hr.1 hr.2 hn c hd hb e h3 h1 h2 h4 h5
          · exact .wrong hr.1 hr.2 hn c hd hb e h3 h1 h2 h4 h5
        · refine .quiet (lift (pollPass_quiet ?_ ?_ ?_)) <;> simp only [State.markPoll_phase, h, ne_eq, Phase.code_inj]
          · exact hi
          · exact hg
          · exact hr
  · exact .quiet (SameGame.rfl' s)

end Sys2Proof.Machine
end

