-- ==== Sys2Proof/Laws/Ticks.lean ====
section
/-! SUPPORT. What the phase step leaves in each phase, a handler as its poll step followed by its phase step, and a tick
without reset as the handler of its phase. -/

namespace Sys2Proof.Machine

/-- The phase step of a phase (R78(2)): the phase gate, in Receive behind the hit exit (R82). -/
def phaseStep (p : Phase) (s : State) : Result :=
  match p with
  | .idle => phaseGate .idle s
  | .gameOn => phaseGate .gameOn s
  | .give => phaseGate .give s
  | .receive => receiveStep s
  | .lost => phaseGate .lost s

/-- Every handler is the poll step and then the phase step of its phase (R78). -/
theorem handler_eq_steps {s : State} {p : Phase} (h : s.phase = p.code) :
    handler s = phaseStep p (pollStep (tPoll s.params p) s) := by
  cases p
  · exact handler_idle h
  · exact handler_gameOn h
  · exact handler_give h
  · exact handler_receive h
  · exact handler_lost h

theorem phaseStep_frame {p : Phase} {s t : State} (h : phaseStep p s = .next t) : GateFrame s t := by
  cases p
  · exact phaseGate_frame h
  · exact phaseGate_frame h
  · exact phaseGate_frame h
  · exact receiveStep_frame h
  · exact phaseGate_frame h

theorem phaseStep_refused {p : Phase} {s : State} {r : Refusal} (h : phaseStep p s = .refused r) :
    r = .omittedRnd ∧ s.input.rnd = none := by
  cases p
  · exact phaseGate_refused h
  · exact phaseGate_refused h
  · exact phaseGate_refused h
  · exact receiveStep_refused h
  · exact phaseGate_refused h

/-- A tick without reset that goes on is the two steps of its phase. -/
theorem tick_run {s t : State} {p : Phase} (hp : s.phase = p.code) (hr : s.rst = false)
    (h : exec .tick s = .next t) :
    s.params.wf = true ∧ phaseStep p (pollStep (tPoll s.params p) s) = .next t := by
  obtain ⟨hw, ⟨hr', -⟩ | ⟨-, h', -⟩⟩ := execTick_eq_next h
  · rw [hr] at hr'; cases hr'
  · exact ⟨hw, by rwa [handler_eq_steps hp] at h'⟩

theorem exec_tick_of_steps {s : State} {p : Phase} (hw : s.params.wf = true) (hp : s.phase = p.code)
    (hr : s.rst = false) : exec .tick s = phaseStep p (pollStep (tPoll s.params p) s) :=
  (execTick_run hw hr).trans (handler_eq_steps hp)

theorem exec_gatePoll {s : State} {p : Phase} (h : s.phase = p.code) :
    exec .gatePoll s = .next (pollStep (tPoll s.params p) s) := by
  change execGatePoll s = _
  unfold execGatePoll
  rw [h, phaseOf_code]

theorem exec_gatePhase {s : State} {p : Phase} (h : s.phase = p.code) : exec .gatePhase s = phaseGate p s := by
  change execGatePhase s = _
  unfold execGatePhase
  rw [h, phaseOf_code]

/-- With valid parameters a toggle's increment does not wrap (R94). -/
theorem wrap_cnt_gameOn {s : State} (hw : s.params.wf = true) (h : s.cnt < s.params.nGameOnToggles) :
    wrap s.params.wCnt (s.cnt + 1) = s.cnt + 1 := by
  simp only [Params.wf, Params.countOk, Bool.and_eq_true, decide_eq_true_eq] at hw
  exact wrap_of_lt (by omega)

theorem wrap_cnt_lost {s : State} (hw : s.params.wf = true) (h : s.cnt < s.params.nLostToggles) :
    wrap s.params.wCnt (s.cnt + 1) = s.cnt + 1 := by
  simp only [Params.wf, Params.countOk, Bool.and_eq_true, decide_eq_true_eq] at hw
  exact wrap_of_lt (by omega)

/-- The phase gate under its guard is the gate's comparison alone. -/
theorem phaseGate_of_guard {p : Phase} {s : State} (hp : s.phase = p.code) (hg : p = .receive → s.hit = false) :
    phaseGate p s = if tAction s.params p ≤ s.elapsed s.tP then phaseAction p s.markPhase else .next s := by
  obtain ⟨-, -, h, e⟩ | ⟨h, e⟩ := phaseGate_cases p s
  · rw [if_pos h, e]
  · rw [if_neg (fun h' => h ⟨hp, hg, h'⟩), e]

/-- The phase gate without its guard does nothing. -/
theorem phaseGate_of_not_phase {p : Phase} {s : State} (hp : s.phase ≠ p.code) : phaseGate p s = .next s := by
  obtain ⟨h, -⟩ | ⟨-, e⟩ := phaseGate_cases p s
  · exact absurd h hp
  · exact e

theorem phaseAction_idle {s : State} {r : Channel} (hr : s.input.rnd = some r) :
    phaseAction .idle s.markPhase = .next { s with tP := s.now, led := onehot r } :=
  withRnd_of_some (s := s.markPhase) hr _

theorem phaseAction_idle_none {s : State} (hr : s.input.rnd = none) :
    phaseAction .idle s.markPhase = .refused .omittedRnd :=
  withRnd_of_none (s := s.markPhase) hr _

theorem phaseAction_gameOn {s : State} (hw : s.params.wf = true) (hc : s.cnt < s.params.nGameOnToggles) :
    phaseAction .gameOn s.markPhase =
      .next { s with tP := s.now, led := (if s.cnt % 2 = 0 then 0b1111#4 else 0b0000#4), cnt := s.cnt + 1 } := by
  rw [show phaseAction .gameOn s.markPhase = _ from gameOnAction_toggle (s := s.markPhase) hc]
  rcases Nat.mod_two_eq_zero_or_one s.cnt with h | h <;>
    simp [State.setCnt, State.setLed, State.markPhase, wrap_cnt_gameOn hw hc, h, allOff, allOn]

theorem phaseAction_gameOn_exit {s : State} {r : Channel} (hc : ¬ s.cnt < s.params.nGameOnToggles)
    (hr : s.input.rnd = some r) :
    phaseAction .gameOn s.markPhase =
      .next { s with tP := s.now, cnt := 0, target := r, led := 0b0000#4, phase := 0b010#3,
                     given := if s.params.givenClearOnGive then false else s.given } := by
  rw [show phaseAction .gameOn s.markPhase = _ from gameOnAction_exit (s := s.markPhase) hc hr]
  cases h : s.params.givenClearOnGive <;>
    simp [State.setCnt, State.setLed, State.markPhase, State.setTarget, State.setGiven, State.setPhase, wrap, h, Phase.code, allOff]

theorem phaseAction_gameOn_none {s : State} (hc : ¬ s.cnt < s.params.nGameOnToggles) (hr : s.input.rnd = none) :
    phaseAction .gameOn s.markPhase = .refused .omittedRnd := by
  change gameOnAction s.markPhase = _
  unfold gameOnAction
  rw [if_neg (by exact hc), withRnd_of_none (by exact hr)]

theorem phaseAction_give (s : State) :
    phaseAction .give s.markPhase =
      .next { s with tP := s.now, led := onehot s.target, given := true, hit := false, phase := 0b011#3 } := rfl

theorem phaseAction_receive (s : State) :
    phaseAction .receive s.markPhase =
      .next { s with tP := s.now, led := 0b0000#4, given := false, phase := 0b100#3 } := rfl

theorem phaseAction_lost {s : State} (hw : s.params.wf = true) (hc : s.cnt < s.params.nLostToggles) :
    phaseAction .lost s.markPhase =
      .next { s with tP := s.now, led := (if s.cnt % 2 = 0 then onehot s.target else 0b0000#4), cnt := s.cnt + 1 } := by
  rw [show phaseAction .lost s.markPhase = _ from lostAction_toggle (s := s.markPhase) hc]
  rcases Nat.mod_two_eq_zero_or_one s.cnt with h | h <;>
    simp [State.setCnt, State.setLed, State.markPhase, wrap_cnt_lost hw hc, h, allOff]

theorem phaseAction_lost_exit {s : State} (hc : ¬ s.cnt < s.params.nLostToggles) :
    phaseAction .lost s.markPhase =
      .next { s with tP := s.now, tD := s.now, cnt := 0, led := 0b0000#4, phase := 0b000#3 } := by
  rw [show phaseAction .lost s.markPhase = _ from lostAction_exit (s := s.markPhase) hc]
  simp only [State.setCnt, State.setLed, State.markPhase, State.markPoll, State.setPhase, wrap, Nat.zero_mod]
  rfl

/-- All a phase gate that goes on can be (R61): nothing, or its mark and the action of its phase (R79 to R83). -/
theorem phaseGate_eq_next {p : Phase} {s t : State} (hw : s.params.wf = true) (h : phaseGate p s = .next t) :
    t = s ∨ (s.phase = p.code ∧ (p = .receive → s.hit = false) ∧ tAction s.params p ≤ s.elapsed s.tP ∧
      match p with
      | .idle => ∃ r, s.input.rnd = some r ∧ t = { s with tP := s.now, led := onehot r }
      | .gameOn =>
        (s.cnt < s.params.nGameOnToggles ∧
          t = { s with tP := s.now, led := (if s.cnt % 2 = 0 then 0b1111#4 else 0b0000#4), cnt := s.cnt + 1 }) ∨
        (¬ s.cnt < s.params.nGameOnToggles ∧ ∃ r, s.input.rnd = some r ∧
          t = { s with tP := s.now, cnt := 0, target := r, led := 0b0000#4, phase := 0b010#3,
                       given := if s.params.givenClearOnGive then false else s.given })
      | .give => t = { s with tP := s.now, led := onehot s.target, given := true, hit := false, phase := 0b011#3 }
      | .receive => t = { s with tP := s.now, led := 0b0000#4, given := false, phase := 0b100#3 }
      | .lost =>
        (s.cnt < s.params.nLostToggles ∧
          t = { s with tP := s.now, led := (if s.cnt % 2 = 0 then onehot s.target else 0b0000#4), cnt := s.cnt + 1 }) ∨
        (¬ s.cnt < s.params.nLostToggles ∧
          t = { s with tP := s.now, tD := s.now, cnt := 0, led := 0b0000#4, phase := 0b000#3 })) := by
  obtain ⟨h1, h2, h3, e⟩ | ⟨-, e⟩ := phaseGate_cases p s <;> rw [e] at h
  · refine .inr ⟨h1, h2, h3, ?_⟩
    cases p with
    | idle =>
      cases hr : s.input.rnd with
      | none => rw [phaseAction_idle_none hr] at h; cases h
      | some r => rw [phaseAction_idle hr] at h; cases h; exact ⟨r, rfl, rfl⟩
    | gameOn =>
      by_cases hc : s.cnt < s.params.nGameOnToggles
      · rw [phaseAction_gameOn hw hc] at h; cases h; exact .inl ⟨hc, rfl⟩
      · cases hr : s.input.rnd with
        | none => rw [phaseAction_gameOn_none hc hr] at h; cases h
        | some r => rw [phaseAction_gameOn_exit hc hr] at h; cases h; exact .inr ⟨hc, r, rfl, rfl⟩
    | give => cases h; exact rfl
    | receive => cases h; exact rfl
    | lost =>
      by_cases hc : s.cnt < s.params.nLostToggles
      · rw [phaseAction_lost hw hc] at h; cases h; exact .inl ⟨hc, rfl⟩
      · rw [phaseAction_lost_exit hc] at h; cases h; exact .inr ⟨hc, rfl⟩
  · cases h; exact .inl rfl

/-- A phase step does nothing in a state whose phase is another one: the guard of R78. -/
theorem phaseStep_other {p q : Phase} {s : State} (h : s.phase = q.code) (hne : p ≠ q) : phaseStep p s = .next s := by
  have h' : s.phase ≠ p.code := by rw [h]; simpa using Ne.symm hne
  cases p
  case receive =>
    obtain ⟨h1, -⟩ | ⟨h1, -⟩ | ⟨-, e⟩ := receiveStep_cases s
    · exact absurd h1 h'
    · exact absurd h1 h'
    · exact e
  all_goals exact phaseGate_of_not_phase h'

/-- All a phase step that goes on can be: nothing, the hit exit of Receive, or one of the actions of R79 to R83, each with
the phase, the elapsed time and the counter that allow it. -/
inductive PhaseEffect (p : Phase) (s u : State) : Prop
  | same (hn : ¬ (p = .receive ∧ s.phase = Phase.receive.code ∧ s.hit = true)) (h : u = s)
  | hitExit (hp : p = .receive) (h1 : s.phase = Phase.receive.code) (hh : s.hit = true)
      (h : u = { s with led := 0b0000#4, phase := 0b001#3 })
  | blink (hp : p = .idle) (h1 : s.phase = Phase.idle.code) (due : s.params.tIdleBlink ≤ s.elapsed s.tP)
      (r : Channel) (hr : s.input.rnd = some r) (h : u = { s with tP := s.now, led := onehot r })
  | toggle (hp : p = .gameOn) (h1 : s.phase = Phase.gameOn.code) (due : s.params.tGameOnToggle ≤ s.elapsed s.tP)
      (hc : s.cnt < s.params.nGameOnToggles) (v : BitVec 4) (hv : v = 0b1111#4 ∨ v = 0b0000#4)
      (h : u = { s with tP := s.now, led := v, cnt := s.cnt + 1 })
  | give (hp : p = .gameOn) (h1 : s.phase = Phase.gameOn.code) (due : s.params.tGameOnToggle ≤ s.elapsed s.tP)
      (hc : ¬ s.cnt < s.params.nGameOnToggles) (r : Channel) (hr : s.input.rnd = some r)
      (h : u = { s with tP := s.now, cnt := 0, target := r, led := 0b0000#4, phase := 0b010#3,
                        given := if s.params.givenClearOnGive then false else s.given })
  | mole (hp : p = .give) (h1 : s.phase = Phase.give.code) (due : s.params.tGiveWait ≤ s.elapsed s.tP)
      (h : u = { s with tP := s.now, led := onehot s.target, given := true, hit := false, phase := 0b011#3 })
  | timeout (hp : p = .receive) (h1 : s.phase = Phase.receive.code) (hh : s.hit = false)
      (due : s.params.tReceiveTimeout ≤ s.elapsed s.tP)
      (h : u = { s with tP := s.now, led := 0b0000#4, given := false, phase := 0b100#3 })
  | lostToggle (hp : p = .lost) (h1 : s.phase = Phase.lost.code) (due : s.params.tLostToggle ≤ s.elapsed s.tP)
      (hc : s.cnt < s.params.nLostToggles) (v : BitVec 4) (hv : v = onehot s.target ∨ v = 0b0000#4)
      (h : u = { s with tP := s.now, led := v, cnt := s.cnt + 1 })
  | idle (hp : p = .lost) (h1 : s.phase = Phase.lost.code) (due : s.params.tLostToggle ≤ s.elapsed s.tP)
      (hc : ¬ s.cnt < s.params.nLostToggles)
      (h : u = { s with tP := s.now, tD := s.now, cnt := 0, led := 0b0000#4, phase := 0b000#3 })

theorem phaseGate_effect {p : Phase} {s u : State} (hw : s.params.wf = true)
    (hn : ¬ (p = .receive ∧ s.phase = Phase.receive.code ∧ s.hit = true)) (h : phaseGate p s = .next u) :
    PhaseEffect p s u := by
  obtain rfl | ⟨h1, h2, h3, h4⟩ := phaseGate_eq_next hw h
  · exact .same hn rfl
  · cases p
    · obtain ⟨r, hr, e⟩ := h4; exact .blink rfl h1 h3 r hr e
    · obtain ⟨hc, e⟩ | ⟨hc, r, hr, e⟩ := h4
      · refine .toggle rfl h1 h3 hc _ ?_ e; split <;> simp
      · exact .give rfl h1 h3 hc r hr e
    · exact .mole rfl h1 h3 h4
    · exact .timeout rfl h1 (h2 rfl) h3 h4
    · obtain ⟨hc, e⟩ | ⟨hc, e⟩ := h4
      · refine .lostToggle rfl h1 h3 hc _ ?_ e; split <;> simp
      · exact .idle rfl h1 h3 hc e

theorem phaseStep_effect {p : Phase} {s u : State} (hw : s.params.wf = true) (h : phaseStep p s = .next u) :
    PhaseEffect p s u := by
  cases p
  case receive =>
    obtain ⟨h1, h2, e⟩ | ⟨h1, h2, e⟩ | ⟨h1, e⟩ := receiveStep_cases s
    · rw [show phaseStep .receive s = _ from e] at h; cases h; exact .hitExit rfl h1 h2 rfl
    · rw [show phaseStep .receive s = _ from e] at h
      exact phaseGate_effect hw (by simp [h2]) h
    · rw [show phaseStep .receive s = _ from e] at h; cases h; exact .same (by simp [h1]) rfl
  all_goals exact phaseGate_effect hw (by simp) h

/-- All a tick without reset that goes on can be: the poll effect of its phase on the way to `m`, then the phase
effect. -/
theorem tick_effect {s u : State} (hr : s.rst = false) (h : exec .tick s = .next u) :
    ∃ (p : Phase) (m : State), s.phase = p.code ∧ s.params.wf = true ∧ m = pollStep (tPoll s.params p) s ∧
      PollStepFrame s m ∧ PollEffect (tPoll s.params p) p s m ∧ PhaseEffect p m u ∧
      ∀ t, m.elapsed t = s.elapsed t := by
  obtain ⟨hw, ⟨h', -⟩ | ⟨-, -, p, hp⟩⟩ := execTick_eq_next h
  · rw [hr] at h'; cases h'
  · obtain ⟨-, hs⟩ := tick_run hp hr h
    have f := pollStep_frame (tPoll s.params p) s
    exact ⟨p, _, hp, hw, rfl, f, pollStep_effect hp _, phaseStep_effect (by rw [f.params]; exact hw) hs,
      fun t => by simp only [State.elapsed, f.now, f.params]⟩

end Sys2Proof.Machine
end

