-- ==== Sys2Proof/Tests/Slice0.lean ====
section
/-! SUPPORT. Tests: the checks on ill-formed input, one word of each key from the tables of spec/30, one-step vectors of
spec/95 (each named by its id), and for every statement with hypotheses states that meet them. -/

namespace Sys2Proof.Tests

open Sys2Proof Sys2Proof.Machine

/-! ## Helpers -/

/-- The next state, if there is one. -/
def nextOf (r : Result) : Option State :=
  match r with
  | .next t => some t
  | .fault _ => none
  | .refused _ => none

/-- The refusal, if there is one. -/
def refusalOf (r : Result) : Option Refusal :=
  match r with
  | .next _ => none
  | .fault _ => none
  | .refused f => some f

/-- The next state, or the given one where there is none. -/
def after (r : Result) (d : State) : State := (nextOf r).getD d

/-- An outcome that goes on is the next state `after` names. -/
theorem goes_on {r : Result} {d : State} (h : (nextOf r).isSome = true) : r = .next (after r d) := by
  cases r <;> first | rfl | cases h

/-- A line of spec/95 without `rst`. -/
def line (now : Nat) (btn : BitVec 4) (rnd : Option Channel) : TickLine := ⟨now, btn, rnd, false⟩

/-- The state `s` with one line at its ports. -/
def given1 (s : State) (now : Nat) (btn : BitVec 4) (rnd : Option Channel) : State := s.withStim [line now btn rnd]

/-- One tick on one line. -/
def tickOn (s : State) (now : Nat) (btn : BitVec 4) (rnd : Option Channel) : Option State :=
  nextOf (exec .tick (given1 s now btn rnd))

/-- The reset state moved to a phase. -/
def inPhase (p : Phase) : State := { State.reset with phase := p.code }

/-! ## Ill-formed input is refused -/

theorem test_params_default_wf : Params.default.wf = true := by decide

/-- One parameter set for each constraint of R7, which the check refuses by the parameter's name. -/
theorem test_params_each_constraint :
    (checkParams { Params.default with wMs := 0, tIdleBlink := 0 } = some .wMs) ∧
    (checkParams { Params.default with tIdleBlink := 2 ^ 32 } = some .tIdleBlink) ∧
    (checkParams { Params.default with tPollIdle := 2 ^ 32 } = some .tPollIdle) ∧
    (checkParams { Params.default with tPollActive := 2 ^ 32 } = some .tPollActive) ∧
    (checkParams { Params.default with tPollGameOn := 2 ^ 32 } = some .tPollGameOn) ∧
    (checkParams { Params.default with tPollLost := 2 ^ 32 } = some .tPollLost) ∧
    (checkParams { Params.default with tGameOnToggle := 2 ^ 32 } = some .tGameOnToggle) ∧
    (checkParams { Params.default with tGiveWait := 2 ^ 32 } = some .tGiveWait) ∧
    (checkParams { Params.default with tReceiveTimeout := 2 ^ 32 } = some .tReceiveTimeout) ∧
    (checkParams { Params.default with tLostToggle := 2 ^ 32 } = some .tLostToggle) ∧
    (checkParams { Params.default with wCnt := 0 } = some .wCnt) ∧
    (checkParams { Params.default with nGameOnToggles := 8 } = some .nGameOnToggles) ∧
    (checkParams { Params.default with nLostToggles := 8 } = some .nLostToggles) := by decide

/-- The same sets are ill-formed for WellFormed's own check. -/
theorem test_params_wf_refuses :
    Params.wf { Params.default with wMs := 0 } = false ∧
    Params.wf { Params.default with tIdleBlink := 2 ^ 32 } = false ∧
    Params.wf { Params.default with tPollIdle := 2 ^ 32 } = false ∧
    Params.wf { Params.default with tPollActive := 2 ^ 32 } = false ∧
    Params.wf { Params.default with tPollGameOn := 2 ^ 32 } = false ∧
    Params.wf { Params.default with tPollLost := 2 ^ 32 } = false ∧
    Params.wf { Params.default with tGameOnToggle := 2 ^ 32 } = false ∧
    Params.wf { Params.default with tGiveWait := 2 ^ 32 } = false ∧
    Params.wf { Params.default with tReceiveTimeout := 2 ^ 32 } = false ∧
    Params.wf { Params.default with tLostToggle := 2 ^ 32 } = false ∧
    Params.wf { Params.default with wCnt := 0 } = false ∧
    Params.wf { Params.default with nGameOnToggles := 8 } = false ∧
    Params.wf { Params.default with nLostToggles := 8 } = false := by decide

/-- A key wider than its format, and a channel beside a key that carries none. -/
theorem test_key_words_ill_formed :
    KeyWord.wf ⟨.deb, 0, 8⟩ = false ∧ KeyWord.wf ⟨.evt, 0, 2⟩ = false ∧ KeyWord.wf ⟨.ph, 0, 8⟩ = false ∧
    KeyWord.wf ⟨.gate, 0, 2⟩ = false ∧ KeyWord.wf ⟨.mux, 0, 8⟩ = false ∧ KeyWord.wf ⟨.ph, 1, 0⟩ = false ∧
    KeyWord.wf ⟨.gate, 2, 0⟩ = false ∧ KeyWord.wf ⟨.mux, 3, 0⟩ = false := by decide

/-- A `now` of 2^32 does not fit the default W_MS (R57). -/
theorem test_line_now_too_wide : TickLine.wf .default ⟨2 ^ 32, 0b1111#4, none, false⟩ = false := by decide

/-- The two composites have no key (R46). -/
theorem test_composites_have_no_key :
    Instr.keyed .tick = false ∧ Instr.keyed .poll = false ∧ encode .tick = none ∧ encode .poll = none := by decide

/-! ## Words of the keys, from the tables of spec/30 -/

/-- The operation of one key word. -/
def opOf (f : Format) (c : Channel) (bits : Nat) : Option Instr := (decodeWord ⟨f, c, bits⟩).toOption

/-- The table of R50: code of the state, then the sampled bit. -/
theorem test_decode_deb :
    opOf .deb 1 0b000 = some (.debDown0 1) ∧ opOf .deb 2 0b001 = some (.debDown1 2) ∧
    opOf .deb 0 0b010 = some (.debUp0 0) ∧ opOf .deb 3 0b011 = some (.debUp1 3) ∧
    opOf .deb 2 0b100 = some (.debFall0 2) ∧ opOf .deb 1 0b101 = some (.debFall1 1) ∧
    opOf .deb 3 0b110 = some (.debRise0 3) ∧ opOf .deb 0 0b111 = some (.debRise1 0) := by decide

/-- R51. -/
theorem test_decode_evt : opOf .evt 3 0b0 = some (.evtPress 3) ∧ opOf .evt 2 0b1 = some (.evtRelease 2) := by decide

/-- R48, R49. -/
theorem test_decode_ph :
    opOf .ph 0 0b000 = some .phIdle ∧ opOf .ph 0 0b001 = some .phGameOn ∧ opOf .ph 0 0b010 = some .phGive ∧
    opOf .ph 0 0b011 = some .phReceive ∧ opOf .ph 0 0b100 = some .phLost ∧ opOf .ph 0 0b101 = some .phIllegal101 ∧
    opOf .ph 0 0b110 = some .phIllegal110 ∧ opOf .ph 0 0b111 = some .phIllegal111 := by decide

/-- R52. -/
theorem test_decode_gate : opOf .gate 0 0b0 = some .gatePoll ∧ opOf .gate 0 0b1 = some .gatePhase := by decide

/-- R53. -/
theorem test_decode_mux :
    opOf .mux 0 0b000 = some .muxHold ∧ opOf .mux 0 0b001 = some .muxOff ∧ opOf .mux 0 0b010 = some .muxAll ∧
    opOf .mux 0 0b011 = some .muxRsvd ∧ opOf .mux 0 0b100 = some (.muxOne 0) ∧ opOf .mux 0 0b101 = some (.muxOne 1) ∧
    opOf .mux 0 0b110 = some (.muxOne 2) ∧ opOf .mux 0 0b111 = some (.muxOne 3) := by decide

/-- The machine's own key is the phase (R46, log 1); a word above 111 is no key. -/
theorem test_table_word :
    decodeTableWord 8 0b011 = some .phReceive ∧ decodeTableWord 8 0b101 = some .phIllegal101 ∧
    decodeTableWord 8 0b1000 = none := by decide

/-! ## Stimulus: rows of spec/95 -/

/-- P1 row 1: `@1000 btn=1011 rnd=0` is 0x2C; P1 row 11 is 0x3D; P4 row 1 is 0x1C. -/
theorem test_input_words :
    inWord (line 1000 0b1011#4 (some 0)) = 0x2C#6 ∧ inWord (line 4100 0b1111#4 (some 1)) = 0x3D#6 ∧
    inWord (line 30040 0b0111#4 none) = 0x1C#6 := by decide

/-- P1 row 1 as text. -/
def textP1 : List Char :=
  ['@', '1', '0', '0', '0', ' ', 'b', 't', 'n', '=', '1', '0', '1', '1', ' ', 'r', 'n', 'd', '=', '0']

theorem test_read_line : (readLine .default textP1).toOption = some (line 1000 0b1011#4 (some 0)) := by decide

/-- P1 row 0 as text. -/
def textReset : List Char := ['@', '0', ' ', 'b', 't', 'n', '=', '1', '1', '1', '1', ' ', 'r', 's', 't']

theorem test_read_reset_line : (readLine .default textReset).toOption = some ⟨0, 0b1111#4, none, true⟩ := by decide

/-- A line with no number, and one with an `rnd` of 4. -/
theorem test_read_bad_lines :
    (readLine .default ['@', ' ', 'b', 't', 'n', '=', '1', '1', '1', '1']).toOption = none ∧
    (readLine .default
      ['@', '1', ' ', 'b', 't', 'n', '=', '1', '1', '1', '1', ' ', 'r', 'n', 'd', '=', '4']).toOption = none := by
  decide

/-! ## Debounce and events: V-D, V-E, V-O of spec/95 -/

/-- Lost, where no event acts, with every channel in one debounce state. -/
def lostAll (v : DebState) : State := { inPhase .lost with deb := .all v }

/-- The debounce state of channel 2 after an operation. -/
def deb2 (i : Instr) (s : State) : Option DebState := (nextOf (exec i s)).map fun t => t.deb.get 2

/-- V-D1 to V-D8. -/
theorem test_debounce_vectors :
    deb2 (.debDown0 2) (lostAll .down) = some .down ∧ deb2 (.debDown1 2) (lostAll .down) = some .rising ∧
    deb2 (.debUp0 2) (lostAll .up) = some .falling ∧ deb2 (.debUp1 2) (lostAll .up) = some .up ∧
    deb2 (.debFall0 2) (lostAll .falling) = some .down ∧ deb2 (.debFall1 2) (lostAll .falling) = some .up ∧
    deb2 (.debRise0 2) (lostAll .rising) = some .down ∧ deb2 (.debRise1 2) (lostAll .rising) = some .up := by decide

/-- V-E1: PRESS in Idle at `now` 5000. -/
theorem test_press_idle :
    (nextOf (exec (.evtPress 1) (given1 { State.reset with tD := 4500, tP := 4000 } 5000 0b1111#4 none))).map
      (fun t => (t.phase, t.cnt, t.tP, t.tD)) = some (0b001#3, 0, 5000, 4500) := by decide

/-- V-E3: PRESS in Give has no effect. -/
theorem test_press_give :
    nextOf (exec (.evtPress 0) (given1 (inPhase .give) 5000 0b1111#4 none)) =
      some (given1 (inPhase .give) 5000 0b1111#4 none) := by decide

/-- Receive with LED 1 lit. -/
def receive1 : State := { inPhase .receive with target := 1, given := true, led := 0b0010#4 }

/-- V-E10: RELEASE of the lit channel. -/
theorem test_release_hit :
    (nextOf (exec (.evtRelease 1) receive1)).map (fun t => (t.phase, t.hit, t.led)) = some (0b011#3, true, 0b0010#4) := by
  decide

/-- V-E11: RELEASE of another channel. -/
theorem test_release_wrong :
    (nextOf (exec (.evtRelease 3) receive1)).map (fun t => (t.phase, t.hit, t.led)) = some (0b100#3, false, 0b0000#4) := by
  decide

/-- V-O1: two presses of one poll in Idle; the first starts the round. -/
theorem test_poll_order_idle :
    (nextOf (exec .poll (given1 { State.reset with deb := ⟨.falling, .up, .falling, .up⟩ } 1000 0b1010#4 none))).map
      (fun t => (t.deb, t.phase, t.tP)) = some (⟨.down, .up, .down, .up⟩, 0b001#3, 1000) := by decide

/-- V-O4: in Receive with LED 3 lit the lower, wrong channel decides. -/
theorem test_poll_order_receive :
    (nextOf (exec .poll (given1 { inPhase .receive with deb := ⟨.up, .down, .up, .down⟩, led := 0b1000#4 } 0 0b1111#4
      none))).map (fun t => (t.deb, t.phase, t.hit)) = some (⟨.up, .rising, .up, .rising⟩, 0b100#3, false) := by decide

/-! ## Gates and handlers: V-P of spec/95 -/

/-- V-P1. -/
theorem test_idle_blink :
    (tickOn State.reset 1000 0b1111#4 (some 2)).map (fun t => (t.phase, t.tD, t.tP, t.led)) =
      some (0b000#3, 1000, 1000, 0b0100#4) := by decide

/-- V-P3: the press is handled before the blink, and `rnd` is not read. -/
theorem test_idle_press :
    (tickOn { State.reset with tD := 1000, tP := 1000, led := 0b0001#4, deb := ⟨.up, .up, .falling, .up⟩ } 2000 0b1011#4
      none).map (fun t => (t.phase, t.cnt, t.tP, t.led)) = some (0b001#3, 0, 2000, 0b0001#4) := by decide

/-- V-P5. -/
theorem test_gameOn_toggle :
    (nextOf (exec .phGameOn (given1 { inPhase .gameOn with cnt := 5, tP := 3500, led := 0b1111#4 } 3800 0b1111#4 none))).map
      (fun t => (t.led, t.cnt, t.tP)) = some (0b0000#4, 6, 3800) := by decide

/-- V-P6. -/
theorem test_gameOn_exit :
    (nextOf (exec .phGameOn (given1 { inPhase .gameOn with cnt := 6, tP := 3800, given := true } 4100 0b1111#4
      (some 1)))).map (fun t => (t.phase, t.cnt, t.target, t.given)) = some (0b010#3, 0, 1, false) := by decide

/-- V-P9. -/
theorem test_give_mole :
    (nextOf (exec .phGive (given1 { inPhase .give with target := 1, tP := 4100, tD := 7060 } 7100 0b1111#4 none))).map
      (fun t => (t.phase, t.led, t.given, t.tP)) = some (0b011#3, 0b0010#4, true, 7100) := by decide

/-- V-P10. -/
theorem test_give_premature :
    (nextOf (exec .phGive (given1 { inPhase .give with tP := 4100, tD := 7060, deb := ⟨.up, .up, .down, .up⟩ } 7100
      0b1111#4 none))).map (fun t => (t.phase, t.led, t.tP, t.deb)) =
      some (0b100#3, 0b0000#4, 4100, ⟨.up, .up, .rising, .up⟩) := by decide

/-- V-P12. -/
theorem test_receive_hit_before_timeout :
    (nextOf (exec .phReceive (given1 { receive1 with tP := 7100, tD := 10060, deb := ⟨.up, .down, .up, .up⟩ } 10100
      0b1111#4 none))).map (fun t => (t.phase, t.led, t.tP, t.given)) = some (0b001#3, 0b0000#4, 7100, true) := by decide

/-- V-P14. -/
theorem test_receive_timeout :
    (nextOf (exec .phReceive (given1 { receive1 with tP := 7100, tD := 10080 } 10100 0b1111#4 none))).map
      (fun t => (t.phase, t.tD, t.given, t.tP)) = some (0b100#3, 10080, false, 10100) := by decide

/-- V-P15. -/
theorem test_lost_toggle :
    (nextOf (exec .phLost (given1 { inPhase .lost with target := 2, tP := 13000 } 13300 0b1111#4 none))).map
      (fun t => (t.led, t.cnt, t.tP)) = some (0b0100#4, 1, 13300) := by decide

/-- V-P17. -/
theorem test_lost_exit :
    (nextOf (exec .phLost (given1 { inPhase .lost with target := 2, cnt := 7, tP := 15100 } 15400 0b1111#4 none))).map
      (fun t => (t.phase, t.cnt, t.tD, t.led)) = some (0b000#3, 0, 15400, 0b0000#4) := by decide

/-- V-P18, for each of the three rows of PH.ILLEGAL. -/
theorem test_illegal_phase :
    refusalOf (exec .phIllegal101 { State.reset with phase := 0b101#3 }) = some (.illegalPhase 0b101#3) ∧
    refusalOf (exec .phIllegal110 { State.reset with phase := 0b110#3 }) = some (.illegalPhase 0b110#3) ∧
    refusalOf (step (given1 { State.reset with phase := 0b111#3 } 5 0b1111#4 none)) = some (.illegalPhase 0b111#3) := by
  decide

/-- V-P19 and V-R1: reset from an illegal phase. -/
theorem test_reset_tick :
    (nextOf (exec .tick ({ lostAll .down with phase := 0b101#3, led := 0b1111#4, tP := 7 }.withStim
      [⟨12345, 0b0000#4, none, true⟩]))).map (fun t => (t.phase, t.deb, t.led, t.tP)) =
      some (0b000#3, DebFile.all .up, 0b0000#4, 0) := by decide

/-- P1 row 5 and V-R3 through the gates alone: Idle's poll gate stays shut at 999; GameOn's phase gate fires at 300. -/
theorem test_gates :
    nextOf (exec .gatePoll (given1 State.reset 999 0b0000#4 none)) = some (given1 State.reset 999 0b0000#4 none) ∧
    (nextOf (exec .gatePhase (given1 { inPhase .gameOn with tP := 2000 } 2300 0b1111#4 none))).map
      (fun t => (t.led, t.cnt, t.tP)) = some (0b1111#4, 1, 2300) := by decide

/-- R59's rollover: W_MS 32, the mark just below 2^32 and `now` just above 0. -/
theorem test_elapsed_rolls_over :
    (given1 State.reset 5 0b1111#4 none).elapsed (2 ^ 32 - 10) = 15 := by decide

/-! ## LED mux: V-M of spec/95 -/

/-- V-M1 to V-M4. -/
theorem test_mux :
    (nextOf (exec .muxHold { State.reset with led := 0b1111#4 })).map State.led = some 0b1111#4 ∧
    (nextOf (exec .muxOff { State.reset with led := 0b0100#4 })).map State.led = some 0b0000#4 ∧
    (nextOf (exec .muxAll State.reset)).map State.led = some 0b1111#4 ∧
    (nextOf (exec (.muxOne 0) State.reset)).map State.led = some 0b0001#4 ∧
    (nextOf (exec (.muxOne 3) State.reset)).map State.led = some 0b1000#4 := by decide

/-- V-M5. -/
theorem test_mux_reserved : refusalOf (exec .muxRsvd State.reset) = some .reservedMuxSelect := by decide

/-- R57: a blink on a line that omits `rnd`. -/
theorem test_omitted_rnd : refusalOf (step (given1 State.reset 1000 0b1111#4 none)) = some .omittedRnd := by decide

/-- The channel order of `deb_o` (R34): channel 0 in the low bits. -/
theorem test_deb_port : State.debO { State.reset with deb := ⟨.down, .up, .falling, .rising⟩ } = 0b11100100#8 := by decide

/-- The host's presentation of a phase key: the next step runs it. -/
theorem test_fetch_word :
    (nextOf (step (State.reset.withFetchWord 8 0b100))).isSome = true ∧
    refusalOf (step (State.reset.withFetchWord 8 0b110)) = some (.illegalPhase 0b110#3) := by decide

/-! ## States that meet the hypotheses of the statements, one theorem per statement, its clauses at their boundaries -/

theorem witness_KeysReadBack :
    Instr.keyed (.muxOne 3) = true ∧ KeyWord.wf ⟨.mux, 0, 7⟩ = true ∧ KeyWord.wf ⟨.deb, 3, 7⟩ = true ∧
    2 ^ Format.width .evt ≤ 2 := by decide

theorem witness_InputWord : (line 0 0b0110#4 (some 3)).rnd = some 3 ∧ (line 0 0b0110#4 (some 3)).rst = false := by decide

theorem witness_StimulusLine : TickLine.wf .default ⟨2 ^ 32 - 1, 0b1010#4, none, true⟩ = true := by decide

/-- A tick of Idle at its first threshold. -/
def idle1000 : State := given1 State.reset 1000 0b1011#4 (some 2)

theorem witness_StepRuns :
    idle1000.params.wf = true ∧ idle1000.rst = false ∧
    opOf .ph 0 idle1000.phase.toNat = some .phIdle := by decide

theorem witness_TickCompletes_run :
    idle1000.params.wf = true ∧ idle1000.LegalPhase ∧ idle1000.RndGiven := ⟨by decide, ⟨.idle, rfl⟩, ⟨2, rfl⟩⟩

/-- A reset line in an illegal phase, with no `rnd`. -/
def resetIn111 : State := { State.reset with phase := 0b111#3, stim := [⟨9, 0b0000#4, none, true⟩] }

theorem witness_ResetTick : resetIn111.params.wf = true ∧ resetIn111.rst = true := by decide

theorem witness_StepUsesOneInputSample : step idle1000 = .next (after (step idle1000) idle1000) := goes_on (by decide)

theorem witness_NoOperationWrites : exec .poll idle1000 = .next (after (exec .poll idle1000) idle1000) := goes_on (by decide)

/-- A tick without reset in each illegal phase. -/
def illegalState (c : BitVec 3) : State := given1 { State.reset with phase := c } 0 0b1111#4 none

theorem witness_IllegalPhase :
    (illegalState 0b101#3).params.wf = true ∧ (illegalState 0b101#3).rst = false ∧ (illegalState 0b101#3).phase = 0b101#3 ∧
    (illegalState 0b110#3).phase = 0b110#3 ∧ (illegalState 0b111#3).phase = 0b111#3 := by decide

/-- No phase has the code 101: the premise of the statements about illegal phases. -/
theorem witness_EventsInAnIllegalPhase : ¬ (illegalState 0b101#3).LegalPhase := by
  rintro ⟨p, hp⟩; cases p <;> exact absurd hp (by decide)

theorem witness_BadParameters :
    ¬ (7 + 1 < 2 ^ ({ Params.default with nLostToggles := 8 } : Params).wCnt) ∧
    refusalOf (step { State.reset with params := { Params.default with nLostToggles := 8 } }) =
      some (.badParameter .nLostToggles) := by decide

/-- The reset state on a line that gives `rnd` meets the game invariant. -/
theorem witness_GoodStates_idle : GameInv idle1000 ∧ idle1000.RndGiven :=
  ⟨⟨by decide, ⟨by decide, by decide, by decide⟩, ⟨.idle, rfl⟩, fun _ => ⟨rfl, .inl rfl⟩, fun h => absurd h (by decide),
    fun h => absurd h (by decide), fun h => absurd h (by decide), fun h => absurd h (by decide)⟩, ⟨2, rfl⟩⟩

/-- GameOn with its last toggle done. -/
def gameOn6 : State := given1 { inPhase .gameOn with cnt := 6, tP := 3800, given := true } 4100 0b1111#4 (some 1)

theorem witness_GoodStates_gameOn : GameInv gameOn6 ∧ gameOn6.RndGiven :=
  ⟨⟨by decide, ⟨by decide, by decide, by decide⟩, ⟨.gameOn, rfl⟩, fun h => absurd h (by decide),
    fun _ => ⟨by decide, .inl rfl⟩, fun h => absurd h (by decide), fun h => absurd h (by decide),
    fun h => absurd h (by decide)⟩, ⟨1, rfl⟩⟩

/-- Give at the end of its wait. -/
def give7100 : State := given1 { inPhase .give with target := 1, tP := 4100, tD := 7060 } 7100 0b1111#4 (some 0)

theorem witness_GoodStates_give : GameInv give7100 ∧ give7100.RndGiven :=
  ⟨⟨by decide, ⟨by decide, by decide, by decide⟩, ⟨.give, rfl⟩, fun h => absurd h (by decide),
    fun h => absurd h (by decide), fun _ => ⟨rfl, rfl, fun _ => rfl⟩, fun h => absurd h (by decide),
    fun h => absurd h (by decide)⟩, ⟨0, rfl⟩⟩

/-- Receive with the timeout due and channel 1 Down. -/
def receive10100 : State :=
  given1 { receive1 with tP := 7100, tD := 10060, deb := ⟨.up, .down, .up, .up⟩ } 10100 0b1111#4 (some 0)

theorem witness_GoodStates_receive : GameInv receive10100 ∧ receive10100.RndGiven :=
  ⟨⟨by decide, ⟨by decide, by decide, by decide⟩, ⟨.receive, rfl⟩, fun h => absurd h (by decide),
    fun h => absurd h (by decide), fun h => absurd h (by decide), fun _ => ⟨rfl, rfl, rfl, rfl⟩,
    fun h => absurd h (by decide)⟩, ⟨0, rfl⟩⟩

/-- Lost with its last toggle done. -/
def lost15400 : State := given1 { inPhase .lost with target := 2, cnt := 7, tP := 15100, led := 0b0100#4 } 15400 0b1111#4 (some 0)

theorem witness_GoodStates_lost : GameInv lost15400 ∧ lost15400.RndGiven :=
  ⟨⟨by decide, ⟨by decide, by decide, by decide⟩, ⟨.lost, rfl⟩, fun h => absurd h (by decide),
    fun h => absurd h (by decide), fun h => absurd h (by decide), fun h => absurd h (by decide),
    fun _ => ⟨.inr rfl, by decide⟩⟩, ⟨0, rfl⟩⟩

theorem witness_EveryStepKeeps : step lost15400 = .next (after (step lost15400) lost15400) := goes_on (by decide)

theorem witness_DebounceTransitions :
    (Instr.debRise1 3, DebState.rising, DebState.up) ∈ [(Instr.debUp0 3, DebState.up, DebState.falling), (.debUp1 3, .up, .up),
      (.debFall1 3, .falling, .up), (.debDown0 3, .down, .down), (.debRise1 3, .rising, .up), (.debRise0 3, .rising, .down)] ∧
    (lostAll .rising).deb.get 3 = .rising ∧ State.reset.deb.get 3 = .up ∧ (lostAll .falling).deb.get 3 = .falling ∧
    (lostAll .down).deb.get 3 = .down := by decide

theorem witness_StableSamples : State.reset.deb.get 3 = .up ∧ (lostAll .down).deb.get 0 = .down := by decide

theorem witness_DebounceRowsActAlike :
    Instr.debFall0 1 ∈ [Instr.debDown0 1, .debDown1 1, .debUp0 1, .debUp1 1, .debFall0 1, .debFall1 1, .debRise0 1,
      .debRise1 1] := by decide

/-- Each of the five phases is legal: the premise of the statements about events, debounce steps and polls. -/
theorem witness_LegalPhase (p : Phase) : (inPhase p).LegalPhase := ⟨p, rfl⟩

/-- Idle with every channel in one debounce state. -/
def idleAll (v : DebState) : State := { inPhase .idle with deb := .all v }

theorem witness_ConfirmedPress :
    ((idleAll .falling).LegalPhase ∧ (idleAll .falling).phase = 0b000#3 ∧ (idleAll .falling).deb.get 2 = .falling) ∧
    (lostAll .falling).LegalPhase ∧ (lostAll .falling).phase ≠ 0b000#3 ∧ (lostAll .falling).deb.get 2 = .falling :=
  ⟨⟨⟨.idle, rfl⟩, by decide, by decide⟩, ⟨.lost, rfl⟩, by decide, by decide⟩

theorem witness_FirstReleased : (lostAll .down).LegalPhase ∧ (lostAll .down).deb.get 1 = .down := ⟨⟨.lost, rfl⟩, by decide⟩

theorem witness_PressStarts : (inPhase .idle).phase = 0b000#3 ∧ (inPhase .gameOn).phase ≠ 0b000#3 := by decide

/-- R86's four clauses: each has a state, and none of them shares a state with another. -/
theorem witness_Release :
    ((inPhase .give).phase = 0b010#3 ∧ (inPhase .give).given = false) ∧
    (receive1.phase = 0b011#3 ∧ receive1.hit = false ∧ receive1.led = onehot 1) ∧
    (receive1.phase = 0b011#3 ∧ receive1.hit = false ∧ receive1.led ≠ onehot 3) ∧
    ¬ (State.reset.phase = 0b010#3 ∧ State.reset.given = false) ∧
    ¬ (State.reset.phase = 0b011#3 ∧ State.reset.hit = false) := by decide

/-- Give one millisecond before either gate opens. -/
def give7099 : State := given1 { inPhase .give with target := 1, tP := 4100, tD := 7060 } 7099 0b1111#4 none

theorem witness_DebounceRegistersMove :
    give7099.phase = Phase.give.code ∧ give7099.rst = false ∧ give7099.elapsed give7099.tD < tPoll give7099.params .give ∧
    exec .tick give7099 = .next (after (exec .tick give7099) give7099) :=
  ⟨by decide, by decide, by decide, goes_on (by decide)⟩

theorem witness_ButtonsAreRead :
    give7099.stim = [line 7099 0b1111#4 none] ∧ give7099.phase = Phase.give.code ∧ give7099.rst = false ∧
    give7099.elapsed give7099.tD < tPoll give7099.params .give ∧
    exec .tick give7099 = .next (after (exec .tick give7099) give7099) :=
  ⟨by decide, by decide, by decide, by decide, goes_on (by decide)⟩

/-- Two polls of a pressed channel 0. -/
def firstPoll : State := given1 (lostAll .up) 40 0b1110#4 none

theorem witness_PressNeedsTwo :
    exec .poll firstPoll = .next (after (exec .poll firstPoll) firstPoll) ∧
    (after (exec .poll firstPoll) firstPoll).pressDue 0 :=
  ⟨goes_on (by decide), by unfold State.pressDue; decide⟩

/-- Channel 0 of Lost in debounce state `v`, sampled as `b`. -/
def sampled (v : DebState) (b : BitVec 4) : State := given1 (lostAll v) 40 b none

/-- V-B3 and then a new press: Down, Rising, Up, Falling, the polls' samples of channel 0 being 1, 1, 0, 0. -/
theorem witness_TwoReleasedPolls :
    PollTrace 0 (sampled .down 0b1111#4 :: [sampled .rising 0b1111#4, sampled .up 0b1110#4] ++ [sampled .falling 0b1110#4]) ∧
    (sampled .down 0b1111#4).deb.get 0 = .down ∧ (sampled .falling 0b1110#4).pressDue 0 :=
  ⟨⟨⟨after (exec .poll (sampled .down 0b1111#4)) State.reset, goes_on (by decide), by decide⟩,
    ⟨after (exec .poll (sampled .rising 0b1111#4)) State.reset, goes_on (by decide), by decide⟩,
    ⟨after (exec .poll (sampled .up 0b1110#4)) State.reset, goes_on (by decide), by decide⟩, True.intro⟩,
    by decide, by unfold State.pressDue; decide⟩

theorem witness_GateCompares :
    1000 < 2 ^ idle1000.params.wMs ∧ idle1000.now = 1000 ∧ 2 ^ 32 - 1 < 2 ^ idle1000.params.wMs ∧
    idle1000.now < 2 ^ 32 - 1 := by decide

theorem witness_PollGate :
    (idle1000.phase = Phase.idle.code ∧ idle1000.params.tPollIdle ≤ idle1000.elapsed idle1000.tD) ∧
    (give7099.phase = Phase.give.code ∧ give7099.elapsed give7099.tD < give7099.params.tPollActive) := by decide

theorem witness_PhaseGate :
    (idle1000.params.wf = true ∧ idle1000.phase = 0b000#3 ∧ idle1000.params.tIdleBlink ≤ idle1000.elapsed idle1000.tP ∧
      idle1000.input.rnd = some 2) ∧
    (gameOn6.phase = 0b001#3 ∧ ¬ gameOn6.cnt < gameOn6.params.nGameOnToggles ∧
      gameOn6.params.tGameOnToggle ≤ gameOn6.elapsed gameOn6.tP) ∧
    give7100.phase = 0b010#3 ∧ receive10100.phase = 0b011#3 ∧ lost15400.phase = 0b100#3 := by decide

/-- GameOn with a toggle due, and the same one millisecond before. -/
def gameOnAt (cnt now : Nat) : State := given1 { inPhase .gameOn with cnt := cnt, tD := 3600, tP := 3500 } now 0b1111#4 none

/-- The shut sides of the phase gate, and the two reads of `rnd` on a line that omits it. -/
theorem witness_PhaseGate_shut :
    ((given1 State.reset 999 0b1111#4 none).elapsed 0 < 1000 ∧ (given1 State.reset 1000 0b1111#4 none).elapsed 0 = 1000) ∧
    (given1 State.reset 1000 0b1111#4 none).input.rnd = none ∧
    (given1 (inPhase .gameOn) 299 0b1111#4 none).elapsed 0 < 300 ∧
    (given1 (inPhase .gameOn) 300 0b1111#4 none).cnt < Params.default.nGameOnToggles ∧
    (given1 { inPhase .gameOn with cnt := 6 } 300 0b1111#4 none).input.rnd = none := by decide

theorem witness_OmittedRandom :
    (given1 State.reset 1000 0b1111#4 none).input.rnd = none ∧ (given1 State.reset 1000 0b1111#4 none).phase = 0b000#3 ∧
    1000 ≤ (given1 State.reset 1000 0b1111#4 none).elapsed 0 ∧
    (gameOnAt 6 3800).input.rnd = none ∧ (gameOnAt 6 3800).phase = 0b001#3 ∧ ¬ (gameOnAt 6 3800).cnt < 6 ∧
    300 ≤ (gameOnAt 6 3800).elapsed (gameOnAt 6 3800).tP := by decide

theorem witness_GatesRefuse : ¬ (illegalState 0b101#3).LegalPhase := witness_EventsInAnIllegalPhase

/-- Idle with a poll and a blink due, then Idle with the press of V-P3. -/
def idlePress : State :=
  given1 { State.reset with tD := 1000, tP := 1000, led := 0b0001#4, deb := ⟨.up, .up, .falling, .up⟩ } 2000 0b1011#4 none

/-- The state a poll step leaves. -/
def polled (s : State) : State := after (exec .gatePoll s) s

theorem witness_IdleHandler :
    (idle1000.phase = 0b000#3 ∧ (polled idle1000).phase = 0b000#3 ∧
      idle1000.params.tIdleBlink ≤ (polled idle1000).elapsed (polled idle1000).tP ∧ idle1000.input.rnd = some 2) ∧
    (idlePress.phase = 0b000#3 ∧ ¬ (polled idlePress).phase = 0b000#3) ∧
    ((polled (given1 State.reset 1000 0b1111#4 none)).phase = 0b000#3 ∧
      (given1 State.reset 1000 0b1111#4 none).input.rnd = none) := by decide

theorem witness_GameOnHandler :
    (gameOn6.params.wf = true ∧ gameOn6.phase = 0b001#3 ∧ gameOn6.input.rnd = some 1 ∧
      ¬ (polled gameOn6).cnt < gameOn6.params.nGameOnToggles ∧ 300 ≤ (polled gameOn6).elapsed (polled gameOn6).tP) ∧
    ((polled (gameOnAt 5 3800)).cnt < 6 ∧ 300 ≤ (polled (gameOnAt 5 3800)).elapsed (polled (gameOnAt 5 3800)).tP) ∧
    (¬ (polled (gameOnAt 6 3800)).cnt < 6 ∧ (gameOnAt 6 3800).input.rnd = none) ∧
    ¬ 300 ≤ (polled (gameOnAt 5 3799)).elapsed (polled (gameOnAt 5 3799)).tP := by decide

/-- V-P10: the wait ends in the tick of a premature release. -/
def givePremature : State :=
  given1 { inPhase .give with tP := 4100, tD := 7060, deb := ⟨.up, .up, .down, .up⟩ } 7100 0b1111#4 none

theorem witness_GiveHandler :
    (give7100.phase = 0b010#3 ∧ (polled give7100).phase = 0b010#3 ∧ 3000 ≤ (polled give7100).elapsed (polled give7100).tP) ∧
    ¬ (polled givePremature).phase = 0b010#3 ∧ ¬ 3000 ≤ (polled give7099).elapsed (polled give7099).tP := by decide

/-- V-P14: the timeout with no poll; and one millisecond before. -/
def receiveAt (now : Nat) : State := given1 { receive1 with tP := 7100, tD := 10080 } now 0b1111#4 none

/-- Receive with channel 3, a wrong one, Down. -/
def receiveWrong : State :=
  given1 { receive1 with tP := 7100, tD := 10060, deb := ⟨.up, .up, .up, .down⟩ } 10100 0b1111#4 none

theorem witness_ReceiveHandler :
    (receive10100.phase = 0b011#3 ∧ (polled receive10100).phase = 0b011#3 ∧ (polled receive10100).hit = true) ∧
    ((polled (receiveAt 10100)).phase = 0b011#3 ∧ (polled (receiveAt 10100)).hit = false ∧
      3000 ≤ (polled (receiveAt 10100)).elapsed (polled (receiveAt 10100)).tP) ∧
    (polled receiveWrong).phase ≠ 0b011#3 ∧
    ((polled (receiveAt 10099)).hit = false ∧
      (polled (receiveAt 10099)).elapsed (polled (receiveAt 10099)).tP < 3000) := by decide

/-- Lost between its toggles. -/
def lostAt (cnt now : Nat) : State := given1 { inPhase .lost with target := 2, cnt := cnt, tP := 15100 } now 0b1111#4 none

theorem witness_LostHandler :
    (lost15400.params.wf = true ∧ lost15400.phase = 0b100#3 ∧ ¬ (polled lost15400).cnt < 7 ∧
      300 ≤ (polled lost15400).elapsed (polled lost15400).tP) ∧
    (polled (lostAt 6 15400)).cnt < 7 ∧ ¬ 300 ≤ (polled (lostAt 6 15399)).elapsed (polled (lostAt 6 15399)).tP := by decide

theorem witness_HandlersComplete :
    lost15400.RndGiven ∧ lost15400.phase = Phase.lost.code ∧
    (Phase.lost, Instr.phLost) ∈ [(Phase.idle, Instr.phIdle), (.gameOn, .phGameOn), (.give, .phGive), (.receive, .phReceive),
      (.lost, .phLost)] :=
  ⟨⟨0, rfl⟩, by decide, by decide⟩

theorem witness_IdlePress :
    idlePress.params.wf = true ∧ idlePress.rst = false ∧ idlePress.phase = 0b000#3 ∧
    idlePress.params.tPollIdle ≤ idlePress.elapsed idlePress.tD ∧ ∃ c, idlePress.pressDue c :=
  ⟨by decide, by decide, by decide, by decide, ⟨2, by unfold State.pressDue; decide⟩⟩

/-- Two Idle polls a second apart with channel 0 pressed in both (V-H2, P5). -/
def heldFirst : State :=
  { State.reset with stim := [line 1000 0b1110#4 (some 0), line 1500 0b1110#4 none, line 2000 0b1110#4 none] }

/-- The state after the first of them. -/
def heldMiddle : State := after (step heldFirst) State.reset

/-- The state in which the second finds the block: a tick that does not poll lies between. -/
def heldSecond : State := after (step heldMiddle) State.reset

theorem witness_HeldPress :
    (heldFirst.rst = false ∧ heldFirst.phase = 0b000#3 ∧
      heldFirst.params.tPollIdle ≤ heldFirst.elapsed heldFirst.tD ∧ heldFirst.deb.get 0 = .up ∧ heldFirst.btn 0 = false) ∧
    step heldFirst = .next heldMiddle ∧ heldSecond.deb.get 0 = heldMiddle.deb.get 0 ∧
    (heldSecond.params.wf = true ∧ heldSecond.phase = 0b000#3 ∧ heldSecond.rst = false ∧
      heldSecond.params.tPollIdle ≤ heldSecond.elapsed heldSecond.tD ∧ heldSecond.btn 0 = false) :=
  ⟨by decide, goes_on (by decide), by decide, by decide⟩

theorem witness_PrematureRelease :
    givePremature.params.wf = true ∧ givePremature.rst = false ∧ givePremature.phase = 0b010#3 ∧
    givePremature.given = false ∧ givePremature.params.tPollActive ≤ givePremature.elapsed givePremature.tD ∧
    ∃ c, givePremature.releaseDue c :=
  ⟨by decide, by decide, by decide, by decide, by decide, ⟨2, by unfold State.releaseDue; decide⟩⟩

/-- The lit channel as the lowest release; for a wrong one see `receiveWrong`. -/
theorem witness_LowestRelease :
    (receive10100.params.wf = true ∧ receive10100.rst = false ∧ receive10100.phase = 0b011#3 ∧ receive10100.hit = false ∧
      receive10100.params.tPollActive ≤ receive10100.elapsed receive10100.tD ∧ receive10100.led = onehot 1 ∧
      receiveWrong.led ≠ onehot 3) ∧
    receive10100.releaseDue 1 ∧ (∀ j, j < 1 → ¬ receive10100.releaseDue j) ∧
    receiveWrong.releaseDue 3 ∧ (∀ j, j < 3 → ¬ receiveWrong.releaseDue j) := by
  unfold State.releaseDue; decide

theorem witness_RandomIsRead :
    give7100.stim = [line 7100 0b1111#4 (some 0)] ∧ ¬ (give7100.phase = 0b000#3) ∧ ¬ (give7100.phase = 0b001#3) ∧
    exec .tick give7100 = .next (after (exec .tick give7100) give7100) :=
  ⟨by decide, by decide, by decide, goes_on (by decide)⟩

/-- One tick along each edge of the phase graph. -/
theorem witness_PhaseChanges :
    (nextOf (step idlePress)).map State.phase = some 0b001#3 ∧ (nextOf (step gameOn6)).map State.phase = some 0b010#3 ∧
    (nextOf (step give7100)).map State.phase = some 0b011#3 ∧
    (nextOf (step givePremature)).map State.phase = some 0b100#3 ∧
    (nextOf (step receive10100)).map State.phase = some 0b001#3 ∧
    (nextOf (step (receiveAt 10100))).map State.phase = some 0b100#3 ∧
    (nextOf (step lost15400)).map State.phase = some 0b000#3 := by decide

theorem witness_Timestamps :
    idlePress.rst = false ∧ idlePress.phase = Phase.idle.code ∧
    step idlePress = .next (after (step idlePress) idlePress) :=
  ⟨by decide, by decide, goes_on (by decide)⟩

/-- Both flags set and cleared along the way: Give to Receive, the hit, the timeout, GameOn to Give. -/
theorem witness_Flags :
    (nextOf (step give7100)).map (fun t => (t.given, t.hit)) = some (true, false) ∧
    (nextOf (step receive10100)).map (fun t => (t.given, t.hit)) = some (true, true) ∧
    (nextOf (step (receiveAt 10100))).map (fun t => (t.given, t.hit)) = some (false, false) ∧
    (nextOf (step gameOn6)).map (fun t => (t.given, t.target)) = some (false, 1) ∧ gameOn6.rst = false := by decide

theorem witness_TargetIsChosen :
    gameOn6.rst = false ∧ gameOn6.phase = 0b001#3 ∧ step gameOn6 = .next (after (step gameOn6) gameOn6) ∧
    lost15400.rst = false ∧ ¬ (lost15400.phase = 0b001#3) :=
  ⟨by decide, by decide, goes_on (by decide), by decide, by decide⟩

theorem witness_TicksWriteOnlyMuxValues : step give7100 = .next (after (step give7100) give7100) := goes_on (by decide)

theorem witness_RegistersFit : RegistersFit lost15400 ∧ exec .phLost lost15400 = .next (after (exec .phLost lost15400) lost15400) :=
  ⟨⟨by decide, by decide, by decide⟩, goes_on (by decide)⟩

end Sys2Proof.Tests
end

/-! The refusal of a broken parameter set (R7, R105): what a tick is refused with, and which parameter the refusal names. -/

namespace Sys2Proof.Machine

/-- A constraint that is broken is found by the check, whichever one the refusal then names. -/
theorem exists_checkParams_eq_some {p : Params} {n : ParamName} (h : (n, false) ∈ paramChecks p) :
    ∃ m, checkParams p = some m := by
  rw [← Option.isSome_iff_exists, checkParams, Option.isSome_map, List.find?_isSome]
  exact ⟨_, h, rfl⟩

/-- All a handler can be refused for; the parameters' validity is none of its grounds. -/
theorem handler_refused {s : State} {r : Refusal} (h : handler s = .refused r) :
    (phaseOf s.phase = none ∧ r = .illegalPhase s.phase) ∨ (s.input.rnd = none ∧ r = .omittedRnd) := by
  cases hp : phaseOf s.phase with
  | none =>
    rw [handler_illegal hp] at h
    cases h
    exact .inl ⟨rfl, rfl⟩
  | some p =>
    rw [handler_eq_steps (phaseOf_eq_some.1 hp)] at h
    obtain ⟨hr, hrnd⟩ := phaseStep_refused h
    exact .inr ⟨(pollStep_frame _ _).input ▸ hrnd, hr⟩

theorem execTick_eq_badParameter_iff {s : State} {n : ParamName} :
    execTick s = .refused (.badParameter n) ↔ checkParams s.params = some n := by
  cases hc : checkParams s.params with
  | some m => simp [execTick, hc]
  | none =>
    have hw := (checkParams_eq_none_iff _).1 hc
    cases hr : s.rst with
    | true => simp [execTick_reset hw hr]
    | false =>
      rw [execTick_run hw hr]
      refine iff_of_false (fun h => ?_) nofun
      obtain ⟨-, e⟩ | ⟨-, e⟩ := handler_refused h <;> cases e

theorem step_eq_refused_iff {s : State} {r : Refusal} : step s = .refused r ↔ execTick s = .refused r := by
  change afterTick (execTick s) = _ ↔ _
  cases execTick s <;> simp [afterTick]

/-- The one condition for BadParameter: the check, which comes before `rst` and the phase, names the parameter. -/
theorem step_eq_badParameter_iff {s : State} {n : ParamName} :
    step s = .refused (.badParameter n) ↔ checkParams s.params = some n :=
  step_eq_refused_iff.trans execTick_eq_badParameter_iff

/-- Settles O13: the model's list of checks holds exactly the broken constraints of R7, and a step is refused as
BadParameter exactly when its search of that list finds one. -/
theorem badParametersAreRefused : Obligations.BadParametersAreRefused := by
  intro s p broken
  have broken_iff (n : ParamName) : broken n ↔ (n, false) ∈ paramChecks p := by
    cases n <;> simp [broken, paramChecks, Params.timeOk, Params.countOk]
  simp only [step_eq_badParameter_iff, broken_iff]
  refine ⟨fun ⟨n, hn⟩ => ?_, fun n hn => checkParams_eq_some hn⟩
  obtain ⟨m, hm⟩ := exists_checkParams_eq_some hn
  exact ⟨m, checkParams_eq_some hm, hm⟩

end Sys2Proof.Machine

/-! A property that every register write keeps is kept by every operation: the one induction over the operations behind
the frame of R28 and R43 and the register widths of R22 to R24. -/

namespace Sys2Proof.Machine

/-- `P` is kept by each register write the operations are built from, and by the reset load. -/
structure KeptByWrites (P : State → Prop) : Prop where
  setDeb {s : State} (i : Channel) (v : DebState) : P s → P (s.setDeb i v)
  setPhase {s : State} (p : Phase) : P s → P (s.setPhase p)
  setTarget {s : State} (c : Channel) : P s → P (s.setTarget c)
  setGiven {s : State} (b : Bool) : P s → P (s.setGiven b)
  setHit {s : State} (b : Bool) : P s → P (s.setHit b)
  setCnt {s : State} (n : Nat) : P s → P (s.setCnt n)
  setLed {s : State} (v : BitVec 4) : P s → P (s.setLed v)
  markPoll {s : State} : P s → P s.markPoll
  markPhase {s : State} : P s → P s.markPhase
  resetRegs {s : State} : P s → P s.resetRegs

theorem withRnd_eq_next {s t : State} {f : Channel → State} (h : withRnd s f = .next t) :
    ∃ r, s.input.rnd = some r ∧ t = f r := by
  obtain ⟨r, hr, e⟩ | ⟨-, e⟩ := withRnd_cases s f <;> rw [e] at h <;> cases h
  exact ⟨r, hr, rfl⟩

/-- All the GameOn action that goes on can be (R80). -/
theorem gameOnAction_eq_next {s t : State} (h : gameOnAction s = .next t) :
    (s.cnt < s.params.nGameOnToggles ∧
      t = (s.setLed (if s.cnt % 2 = 1 then allOff else allOn)).setCnt (s.cnt + 1)) ∨
    (¬ s.cnt < s.params.nGameOnToggles ∧ ∃ r, s.input.rnd = some r ∧
      t = ((((s.setCnt 0).setTarget r).setLed allOff).setGiven
        (s.given && !s.params.givenClearOnGive)).setPhase .give) := by
  by_cases hc : s.cnt < s.params.nGameOnToggles
  · rw [gameOnAction_toggle hc] at h
    cases h
    exact .inl ⟨hc, rfl⟩
  · have h' := h
    rw [gameOnAction, if_neg hc] at h'
    obtain ⟨r, hr, -⟩ := withRnd_eq_next h'
    rw [gameOnAction_exit hc hr] at h
    cases h
    exact .inr ⟨hc, r, hr, rfl⟩

/-- All the Lost action can be (R83). -/
theorem lostAction_eq_next {s t : State} (h : lostAction s = .next t) :
    (s.cnt < s.params.nLostToggles ∧
      t = (s.setLed (if s.cnt % 2 = 1 then allOff else onehot s.target)).setCnt (s.cnt + 1)) ∨
    (¬ s.cnt < s.params.nLostToggles ∧ t = (((s.setCnt 0).markPoll).setLed allOff).setPhase .idle) := by
  by_cases hc : s.cnt < s.params.nLostToggles
  · rw [lostAction_toggle hc] at h
    cases h
    exact .inl ⟨hc, rfl⟩
  · rw [lostAction_exit hc] at h
    cases h
    exact .inr ⟨hc, rfl⟩

namespace KeptByWrites

variable {P : State → Prop} {s t : State}

theorem eventPress (k : KeptByWrites P) (i : Channel) (hs : P s) : P (eventPress i s) := by
  by_cases h : s.phase = Phase.idle.code
  · rw [eventPress_idle h]
    exact k.markPhase (k.setCnt 0 (k.setPhase .gameOn hs))
  · rwa [eventPress_other h]

theorem eventRelease (k : KeptByWrites P) (i : Channel) (hs : P s) : P (eventRelease i s) := by
  obtain ⟨-, -, e⟩ | ⟨-, -, -, e⟩ | ⟨-, -, -, e⟩ | ⟨-, -, e⟩ := eventRelease_cases i s <;> rw [e]
  · exact k.setPhase .lost hs
  · exact k.setHit true hs
  · exact k.setPhase .lost (k.setLed allOff (k.setHit false hs))
  · exact hs

theorem debStep (k : KeptByWrites P) (i : Channel) (hs : P s) : P (debStep i s) := by
  rw [debStep_eq]
  split_ifs
  · exact k.eventPress i (k.setDeb i .down hs)
  · exact k.eventRelease i (k.setDeb i .rising hs)
  · exact k.setDeb i _ hs

theorem pollPass (k : KeptByWrites P) (hs : P s) : P (pollPass s) :=
  pollPass_induct (fun i _ => k.debStep i) hs

theorem pollStep (k : KeptByWrites P) (n : Nat) (hs : P s) : P (pollStep n s) := by
  obtain ⟨-, e⟩ | ⟨-, e⟩ := pollStep_cases n s <;> rw [e]
  · exact k.pollPass (k.markPoll hs)
  · exact hs

theorem phaseAction (k : KeptByWrites P) {p : Phase} (hs : P s) (h : phaseAction p s = .next t) : P t := by
  cases p with
  | idle =>
    obtain ⟨r, -, rfl⟩ := withRnd_eq_next h
    exact k.setLed (onehot r) hs
  | gameOn =>
    obtain ⟨-, rfl⟩ | ⟨-, r, -, rfl⟩ := gameOnAction_eq_next h
    · exact k.setCnt _ (k.setLed _ hs)
    · exact k.setPhase .give (k.setGiven _ (k.setLed allOff (k.setTarget r (k.setCnt 0 hs))))
  | give =>
    cases h
    exact k.setPhase .receive (k.setHit false (k.setGiven true (k.setLed (onehot s.target) hs)))
  | receive =>
    cases h
    exact k.setPhase .lost (k.setGiven false (k.setLed allOff hs))
  | lost =>
    obtain ⟨-, rfl⟩ | ⟨-, rfl⟩ := lostAction_eq_next h
    · exact k.setCnt _ (k.setLed _ hs)
    · exact k.setPhase .idle (k.setLed allOff (k.markPoll (k.setCnt 0 hs)))

theorem phaseGate (k : KeptByWrites P) {p : Phase} (hs : P s) (h : phaseGate p s = .next t) : P t := by
  obtain ⟨-, -, -, e⟩ | ⟨-, e⟩ := phaseGate_cases p s <;> rw [e] at h
  · exact k.phaseAction (k.markPhase hs) h
  · cases h
    exact hs

theorem phaseStep (k : KeptByWrites P) {p : Phase} (hs : P s) (h : phaseStep p s = .next t) : P t := by
  cases p
  case receive =>
    change receiveStep s = _ at h
    obtain ⟨-, -, e⟩ | ⟨-, -, e⟩ | ⟨-, e⟩ := receiveStep_cases s <;> rw [e] at h
    · cases h
      exact k.setPhase .gameOn (k.setLed allOff hs)
    · exact k.phaseGate hs h
    · cases h
      exact hs
  all_goals exact k.phaseGate hs h

theorem tick (k : KeptByWrites P) (hs : P s) (h : execTick s = .next t) : P t := by
  obtain ⟨-, ⟨-, rfl⟩ | ⟨-, hh, p, hp⟩⟩ := execTick_eq_next h
  · exact k.resetRegs hs
  · rw [handler_eq_steps hp] at hh
    exact k.phaseStep (k.pollStep _ hs) hh

/-- What every register write keeps, every operation keeps. -/
theorem exec (k : KeptByWrites P) {i : Instr} (hs : P s) (h : exec i s = .next t) : P t := by
  cases i with
  | debDown0 c | debUp0 c | debUp1 c | debFall1 c | debRise0 c | debRise1 c => cases h; exact k.setDeb c _ hs
  | debFall0 c => cases h; exact k.eventPress c (k.setDeb c .down hs)
  | debDown1 c => cases h; exact k.eventRelease c (k.setDeb c .rising hs)
  | evtPress c => cases h; exact k.eventPress c hs
  | evtRelease c => cases h; exact k.eventRelease c hs
  | phIdle => exact k.phaseStep (p := .idle) (k.pollStep _ hs) h
  | phGameOn => exact k.phaseStep (p := .gameOn) (k.pollStep _ hs) h
  | phGive => exact k.phaseStep (p := .give) (k.pollStep _ hs) h
  | phReceive => exact k.phaseStep (p := .receive) (k.pollStep _ hs) h
  | phLost => exact k.phaseStep (p := .lost) (k.pollStep _ hs) h
  | phIllegal101 | phIllegal110 | phIllegal111 | muxRsvd => cases h
  | gatePoll =>
    change execGatePoll s = _ at h
    unfold execGatePoll at h
    split at h <;> cases h
    exact k.pollStep _ hs
  | gatePhase =>
    change execGatePhase s = _ at h
    unfold execGatePhase at h
    split at h
    · exact k.phaseGate hs h
    · cases h
  | muxHold => cases h; exact hs
  | muxOff | muxAll | muxOne => cases h; exact k.setLed _ hs
  | tick => exact k.tick hs h
  | poll => cases h; exact k.pollPass hs

end KeptByWrites

/-- No register write touches the parameters or the inputs. -/
theorem sameOutside_keptByWrites (s : State) : KeptByWrites (SameOutside s) := by
  constructor <;> intros <;> obtain ⟨hp, hs, ht⟩ := ‹SameOutside s _› <;> exact ⟨hp, hs, ht⟩

/-- Settles O10: parameters, stimulus and tick counter are outside every register write. -/
theorem noOperationWritesParametersOrInputs : Obligations.NoOperationWritesParametersOrInputs :=
  fun _ s _ h => (sameOutside_keptByWrites s).exec ⟨rfl, rfl, rfl⟩ h

/-- The numeric registers fit after every write: a counter is written modulo its width, a mark is the port `now`. -/
theorem registersFit_keptByWrites : KeptByWrites RegistersFit where
  setDeb _ _ f := ⟨f.cnt, f.tD, f.tP⟩
  setPhase _ f := ⟨f.cnt, f.tD, f.tP⟩
  setTarget _ f := ⟨f.cnt, f.tD, f.tP⟩
  setGiven _ f := ⟨f.cnt, f.tD, f.tP⟩
  setHit _ f := ⟨f.cnt, f.tD, f.tP⟩
  setCnt _ f := ⟨wrap_lt _ _, f.tD, f.tP⟩
  setLed _ f := ⟨f.cnt, f.tD, f.tP⟩
  markPoll {s} f := ⟨f.cnt, s.now_lt, f.tP⟩
  markPhase {s} f := ⟨f.cnt, f.tD, s.now_lt⟩
  resetRegs _ := ⟨Nat.two_pow_pos _, Nat.two_pow_pos _, Nat.two_pow_pos _⟩

/-- Settles O50: each write of a numeric register is taken modulo its width. -/
theorem registersStayWithinTheirWidths : Obligations.RegistersStayWithinTheirWidths :=
  fun _ _ _ hs h => registersFit_keptByWrites.exec hs h

end Sys2Proof.Machine

/-! The phase step under another input line with the same `now` and `rnd`: it does not read the buttons (R32, R125). -/

namespace Sys2Proof.Machine

section
variable {s t : State} {st : List TickLine} {p : Phase}

theorem State.elapsed_withStim (hn : (s.withStim st).now = s.now) (m : Nat) :
    (s.withStim st).elapsed m = s.elapsed m := by
  simp only [State.elapsed, hn, State.withStim_params]

theorem State.markPoll_withStim (hn : (s.withStim st).now = s.now) :
    (s.withStim st).markPoll = s.markPoll.withStim st := by
  simp only [State.markPoll, hn]; rfl

theorem State.markPhase_withStim (hn : (s.withStim st).now = s.now) :
    (s.withStim st).markPhase = s.markPhase.withStim st := by
  simp only [State.markPhase, hn]; rfl

theorem phaseAction_withStim (hn : (s.withStim st).now = s.now) (hr : (s.withStim st).input.rnd = s.input.rnd)
    (h : phaseAction p s = .next t) : phaseAction p (s.withStim st) = .next (t.withStim st) := by
  cases p with
  | idle =>
    obtain ⟨r, e, rfl⟩ := withRnd_eq_next h
    exact withRnd_of_some (hr.trans e) _
  | gameOn =>
    obtain ⟨hc, rfl⟩ | ⟨hc, r, e, rfl⟩ := gameOnAction_eq_next h
    · exact gameOnAction_toggle (s := s.withStim st) hc
    · exact gameOnAction_exit (s := s.withStim st) hc (hr.trans e)
  | give => cases h; rfl
  | receive => cases h; rfl
  | lost =>
    obtain ⟨hc, rfl⟩ | ⟨hc, rfl⟩ := lostAction_eq_next h
    · exact lostAction_toggle (s := s.withStim st) hc
    · have e : ((s.withStim st).setCnt 0).markPoll = ((s.setCnt 0).markPoll).withStim st :=
        State.markPoll_withStim (s := s.setCnt 0) hn
      change lostAction _ = _
      rw [lostAction_exit (s := s.withStim st) hc, e]
      rfl

theorem phaseGate_withStim (hn : (s.withStim st).now = s.now) (hr : (s.withStim st).input.rnd = s.input.rnd)
    (h : phaseGate p s = .next t) : phaseGate p (s.withStim st) = .next (t.withStim st) := by
  have he := State.elapsed_withStim hn s.tP
  obtain ⟨hp, hh, due, e⟩ | ⟨hno, e⟩ := phaseGate_cases p s <;> rw [e] at h
  · rw [phaseGate_of_guard (s := s.withStim st) hp hh, if_pos (by exact due.trans_eq he.symm),
      State.markPhase_withStim hn]
    exact phaseAction_withStim (s := s.markPhase) hn hr h
  · cases h
    obtain ⟨hp, hh, due, -⟩ | ⟨-, e'⟩ := phaseGate_cases p (s.withStim st)
    · exact absurd ⟨hp, hh, due.trans_eq he⟩ hno
    · exact e'

theorem phaseStep_withStim (hn : (s.withStim st).now = s.now) (hr : (s.withStim st).input.rnd = s.input.rnd)
    (h : phaseStep p s = .next t) : phaseStep p (s.withStim st) = .next (t.withStim st) := by
  cases p
  case receive =>
    change receiveStep _ = _ at h ⊢
    unfold receiveStep at h ⊢
    rw [State.withStim_phase, State.withStim_hit]
    split_ifs at h ⊢
    · cases h; rfl
    · exact phaseGate_withStim hn hr h
    · cases h; rfl
  all_goals exact phaseGate_withStim hn hr h

/-- A tick whose poll gate is closed reads `now`, `rnd` and `rst` of its line only. -/
theorem exec_tick_withStim_of_closed (hn : (s.withStim st).now = s.now)
    (hr : (s.withStim st).input.rnd = s.input.rnd) (hrst : (s.withStim st).rst = s.rst) (hrst0 : s.rst = false)
    (hp : s.phase = p.code) (hclosed : s.elapsed s.tD < tPoll s.params p) (h : exec .tick s = .next t) :
    exec .tick (s.withStim st) = .next (t.withStim st) := by
  obtain ⟨hw, hs⟩ := tick_run hp hrst0 h
  rw [pollStep_closed hclosed] at hs
  have hclosed' : (s.withStim st).elapsed (s.withStim st).tD < tPoll (s.withStim st).params p :=
    (State.elapsed_withStim hn s.tD).trans_lt hclosed
  rw [exec_tick_of_steps (s := s.withStim st) hw hp (hrst.trans hrst0), pollStep_closed hclosed']
  exact phaseStep_withStim hn hr hs

end

/-- Settles O26: the line with other buttons has the same `now`, `rnd` and `rst`. -/
theorem buttonsAreReadOnlyInAPoll : Obligations.ButtonsAreReadOnlyInAPoll := by
  intro s t p l ls b hst hp hrst hclosed h
  have hin : s.input = l := by rw [State.input, hst]
  refine exec_tick_withStim_of_closed (st := { l with btnN := b } :: ls) ?_ ?_ ?_ hrst hp hclosed h
  · rw [State.now, State.now, hin]; rfl
  · rw [hin]; rfl
  · rw [State.rst, State.rst, hin]; rfl

end Sys2Proof.Machine

/-! The one writer of `target` (R19, R80), and the output ports (R34). -/

namespace Sys2Proof.Machine

/-- The phase step writes `target` on the way from GameOn to Give, with the line's `rnd`; on no other way does it write
`target`, nor does it leave GameOn. -/
theorem PhaseEffect.target_cases {p : Phase} {m u : State} (e : PhaseEffect p m u) :
    (p = .gameOn ∧ m.phase = Phase.gameOn.code ∧ u.phase = Phase.give.code ∧ m.input.rnd = some u.target) ∨
    (u.target = m.target ∧ (p = .gameOn → u.phase = m.phase)) := by
  cases e with
  | give hp h1 _ _ r hr h => subst h; exact .inl ⟨hp, h1, rfl, hr⟩
  | same _ h => subst h; exact .inr ⟨rfl, fun _ => rfl⟩
  | toggle _ _ _ _ _ _ h => subst h; exact .inr ⟨rfl, fun _ => rfl⟩
  | hitExit hp _ _ h | blink hp _ _ _ _ h | mole hp _ _ h | timeout hp _ _ _ h | lostToggle hp _ _ _ _ _ h
  | idle hp _ _ _ h => subst hp h; exact .inr ⟨rfl, nofun⟩

/-- Settles O48: the poll step writes no `target` and leaves GameOn as it is, so the phase step decides both. -/
theorem targetIsChosenOnEntryToGive : Obligations.TargetIsChosenOnEntryToGive := by
  intro s t hrst h
  obtain ⟨u, hu, rfl⟩ := step_eq_next h
  obtain ⟨p, m, hp, -, rfl, f, -, e, -⟩ := tick_effect hrst hu
  obtain ⟨rfl, -, hgive, hrnd⟩ | ⟨htarget, hstay⟩ := e.target_cases
  · exact ⟨fun _ => f.input ▸ hrnd, fun hno => absurd ⟨hp, hgive⟩ hno⟩
  · refine ⟨fun ⟨hs, ht⟩ => ?_, fun _ => htarget.trans f.target⟩
    obtain rfl : p = .gameOn := Phase.code_inj.1 (hp.symm.trans hs)
    have hquiet : (pollStep (tPoll s.params .gameOn) s).phase = s.phase :=
      (pollStep_quiet (by simp [hp]) (by simp [hp]) (by simp [hp])).phase
    rw [State.advance_phase, hstay rfl, hquiet, hs] at ht
    exact absurd ht (by decide)

@[simp] theorem DebState.ofCode_code (d : DebState) : DebState.ofCode d.code = d := by cases d <;> rfl

@[simp] theorem channelOfBits_channelBits (c : Channel) : channelOfBits (channelBits c) = c := by
  revert c; decide

/-- Channel `c`'s code stands at bits `2c+1` and `2c` of `deb_o`: drop the channels above it, then read it off. -/
theorem State.extractLsb'_debO (s : State) (c : Channel) :
    s.debO.extractLsb' (2 * c.val) 2 = (s.deb.get c).code := by
  unfold State.debO
  match c with
  | 0 =>
    rw [BitVec.extractLsb'_append_eq_of_add_le (by decide), BitVec.extractLsb'_append_eq_of_add_le (by decide)]
    exact BitVec.extractLsb'_append_eq_right
  | 1 =>
    rw [BitVec.extractLsb'_append_eq_of_add_le (by decide), BitVec.extractLsb'_append_eq_of_add_le (by decide)]
    exact BitVec.extractLsb'_append_eq_left
  | 2 =>
    rw [BitVec.extractLsb'_append_eq_of_add_le (by decide)]
    exact BitVec.extractLsb'_append_eq_left
  | 3 => exact BitVec.extractLsb'_append_eq_left

/-- Settles O53: each port is its register's bits, and a numeric register that fits its width is shown whole. -/
theorem portsShowTheRegisters : Obligations.PortsShowTheRegisters := by
  intro s
  refine ⟨rfl, rfl, fun c => ?_, channelOfBits_channelBits s.target, BitVec.ofBool_eq_iff_eq (b' := true),
    BitVec.ofBool_eq_iff_eq (b' := true), fun ⟨hcnt, htD, htP⟩ => ?_⟩
  · rw [s.extractLsb'_debO, DebState.ofCode_code]
  · exact ⟨Nat.mod_eq_of_lt hcnt, Nat.mod_eq_of_lt htD, Nat.mod_eq_of_lt htP⟩

end Sys2Proof.Machine

/-! A step's outside (R28, R38): the tick itself leaves it alone, and the advance after the tick uses up one sample. -/

namespace Sys2Proof.Machine

/-- Settles O9: the tick keeps parameters, stimulus and tick counter, so the advance after it is their only change. -/
theorem stepUsesOneInputSample : Obligations.StepUsesOneInputSample := by
  intro s t h
  obtain ⟨u, hu, rfl⟩ := step_eq_next h
  obtain ⟨hparams, hstim, hticks⟩ := noOperationWritesParametersOrInputs .tick s u hu
  exact ⟨congrArg List.tail hstim, congrArg (· + 1) hticks, hparams⟩

end Sys2Proof.Machine

/-! The five decode keys (R46 to R54): the encoder and the decoder are inverse to each other, key format by key format. -/

namespace Sys2Proof

open Laws in
/-- `Laws.KeyFits` for every operation at once. -/
theorem keyFits (i : Instr) : KeyFits.Statement i :=
  match i with
  | .debDown0 c => KeyFits.debDown0 c
  | .debDown1 c => KeyFits.debDown1 c
  | .debUp0 c => KeyFits.debUp0 c
  | .debUp1 c => KeyFits.debUp1 c
  | .debFall0 c => KeyFits.debFall0 c
  | .debFall1 c => KeyFits.debFall1 c
  | .debRise0 c => KeyFits.debRise0 c
  | .debRise1 c => KeyFits.debRise1 c
  | .evtPress c => KeyFits.evtPress c
  | .evtRelease c => KeyFits.evtRelease c
  | .phIdle => KeyFits.phIdle
  | .phGameOn => KeyFits.phGameOn
  | .phGive => KeyFits.phGive
  | .phReceive => KeyFits.phReceive
  | .phLost => KeyFits.phLost
  | .phIllegal101 => KeyFits.phIllegal101
  | .phIllegal110 => KeyFits.phIllegal110
  | .phIllegal111 => KeyFits.phIllegal111
  | .gatePoll => KeyFits.gatePoll
  | .gatePhase => KeyFits.gatePhase
  | .muxHold => KeyFits.muxHold
  | .muxOff => KeyFits.muxOff
  | .muxAll => KeyFits.muxAll
  | .muxRsvd => KeyFits.muxRsvd
  | .muxOne c => KeyFits.muxOne c
  | .tick => KeyFits.tick
  | .poll => KeyFits.poll

theorem exists_encode_of_keyed {i : Instr} (h : i.keyed = true) : ∃ k, encode i = some k ∧ k.wf = true := by
  obtain ⟨hkeyed, hwf⟩ := keyFits i
  obtain ⟨k, hk⟩ := Option.isSome_iff_exists.1 (hkeyed.trans h)
  exact ⟨k, hk, hwf k hk⟩

/-- The decoder undoes the encoder. -/
theorem decodeWord_of_encode {i : Instr} {k : KeyWord} (h : encode i = some k) : decodeWord k = .ok i := by
  cases i with
  | tick | poll => cases h
  | muxOne c => cases h; fin_cases c <;> rfl
  | _ => cases h; rfl

theorem encode_decodeDeb (c : Channel) {n : Nat} (h : n < 2 ^ 3) :
    encode (decodeDeb c (BitVec.ofNat 3 n)) = some ⟨.deb, c, n⟩ := by
  revert c n; decide

theorem encode_decodeEvt (c : Channel) {n : Nat} (h : n < 2 ^ 1) :
    encode (decodeEvt c (BitVec.ofNat 1 n)) = some ⟨.evt, c, n⟩ := by
  revert c n; decide

theorem encode_decodePh {n : Nat} (h : n < 2 ^ 3) : encode (decodePh (BitVec.ofNat 3 n)) = some ⟨.ph, 0, n⟩ := by
  revert n; decide

theorem encode_decodeGate {n : Nat} (h : n < 2 ^ 1) :
    encode (decodeGate (BitVec.ofNat 1 n)) = some ⟨.gate, 0, n⟩ := by
  revert n; decide

theorem encode_decodeMux {n : Nat} (h : n < 2 ^ 3) : encode (decodeMux (BitVec.ofNat 3 n)) = some ⟨.mux, 0, n⟩ := by
  revert n; decide

theorem KeyWord.wf_iff (k : KeyWord) :
    k.wf = true ↔ k.bits < 2 ^ k.fmt.width ∧ (k.fmt.carriesChannel = false → k.chan = 0) := by
  cases h : k.fmt.carriesChannel <;> simp [KeyWord.wf, h]

/-- The encoder undoes the decoder on well-formed words: a format without a channel leaves channel 0 to encode. -/
theorem exists_decodeWord_of_wf {k : KeyWord} (h : k.wf = true) : ∃ i, decodeWord k = .ok i ∧ encode i = some k := by
  obtain ⟨hbits, hchan⟩ := k.wf_iff.1 h
  refine ⟨_, if_pos hbits, ?_⟩
  obtain ⟨f, c, n⟩ := k
  cases f with
  | deb => exact encode_decodeDeb c hbits
  | evt => exact encode_decodeEvt c hbits
  | ph => obtain rfl : c = 0 := hchan rfl; exact encode_decodePh hbits
  | gate => obtain rfl : c = 0 := hchan rfl; exact encode_decodeGate hbits
  | mux => obtain rfl : c = 0 := hchan rfl; exact encode_decodeMux hbits

/-- Settles O1: encoder after decoder and decoder after encoder are the identity where they answer. -/
theorem keysReadBackAsTheirOperation : Obligations.KeysReadBackAsTheirOperation := by
  refine ⟨fun i hi => ?_, fun k hk => exists_decodeWord_of_wf hk, fun k hk => if_neg (Nat.not_lt.2 hk)⟩
  obtain ⟨k, hk, hwf⟩ := exists_encode_of_keyed hi
  exact ⟨k, hk, hwf, decodeWord_of_encode hk⟩

/-- Settles O2: each of the seven words is the one the encoder gives its operation. -/
theorem tableWordsDecode : Obligations.TableWordsDecode :=
  ⟨decodeWord_of_encode rfl, decodeWord_of_encode rfl, decodeWord_of_encode rfl, decodeWord_of_encode rfl,
    decodeWord_of_encode rfl, decodeWord_of_encode rfl, decodeWord_of_encode rfl⟩

end Sys2Proof

/-! The input word of a tick (R56). -/

namespace Sys2Proof.Machine

@[simp] theorem channelBits_channelOfBits (b : BitVec 2) : channelBits (channelOfBits b) = b := by
  revert b; decide

theorem lineOfWord_inWord {l : TickLine} {r : Channel} (hrnd : l.rnd = some r) (hrst : l.rst = false) :
    lineOfWord l.now (inWord l) = l := by
  obtain ⟨now, btn, rnd, rst⟩ := l
  obtain rfl : rnd = some r := hrnd
  obtain rfl : rst = false := hrst
  have hbtn : (btn ++ channelBits r).extractLsb' 2 4 = btn := BitVec.extractLsb'_append_eq_left
  have hbits : (btn ++ channelBits r).extractLsb' 0 2 = channelBits r := BitVec.extractLsb'_append_eq_right
  simp [lineOfWord, inWord, hbtn, hbits]

theorem inWord_lineOfWord (n : Nat) (w : BitVec 6) : inWord (lineOfWord n w) = w := by
  calc inWord (lineOfWord n w)
      = w.extractLsb' 2 4 ++ channelBits (channelOfBits (w.extractLsb' 0 2)) := rfl
    _ = w.extractLsb' 2 4 ++ w.extractLsb' 0 2 := by rw [channelBits_channelOfBits]
    _ = w.extractLsb' 0 6 := BitVec.extractLsb'_append_extractLsb'_eq_extractLsb' rfl
    _ = w := BitVec.extractLsb'_eq_self

/-- Settles O3: the word is the buttons beside the two bits of the channel, and each part reads back. -/
theorem inputWordReadsBack : Obligations.InputWordReadsBack :=
  ⟨fun _ _ hrnd hrst => lineOfWord_inWord hrnd hrst, inWord_lineOfWord⟩

end Sys2Proof.Machine

/-! A stimulus line read back (R57): the reader of each piece of the grammar undoes the writer of that piece and leaves the
rest of the line. -/

namespace Sys2Proof.Machine

theorem digitValue_digitChar {d : Nat} (h : d < 10) : digitValue (digitChar d) = some d := by
  revert d; decide

/-- The writer's last digit becomes the reader's first one after the number read so far, so a number is read digit by
digit in the order of the writer's recursion. -/
theorem readNumber_showDigits {fuel n : Nat} (h : n < fuel) (rest : List Char) :
    readNumber (showDigits fuel n ++ rest) = some (readDigits n rest) := by
  induction fuel generalizing n rest with
  | zero => exact absurd h (Nat.not_lt_zero n)
  | succ fuel ih =>
    unfold showDigits
    split
    · next hn => simp [readNumber, digitValue_digitChar hn]
    · next hn =>
      rw [List.append_assoc, List.singleton_append, ih (by omega), readDigits,
        digitValue_digitChar (Nat.mod_lt n (by decide))]
      simp only [Nat.div_add_mod']

theorem readExactly_append (word rest : List Char) : readExactly word (word ++ rest) = some rest := by
  induction word with
  | nil => rfl
  | cons w ws ih => simpa [readExactly] using ih

theorem readBit_showBit (b : Bool) (rest : List Char) : readBit (showBit b :: rest) = some (b, rest) := by
  cases b <;> rfl

/-- The four button bits of a line, highest channel first. -/
def showButtons (b : BitVec 4) : List Char :=
  [showBit (b.getLsbD 3), showBit (b.getLsbD 2), showBit (b.getLsbD 1), showBit (b.getLsbD 0)]

theorem ofBool_append_getLsbD (b : BitVec 4) :
    BitVec.ofBool (b.getLsbD 3) ++ BitVec.ofBool (b.getLsbD 2) ++ BitVec.ofBool (b.getLsbD 1) ++
      BitVec.ofBool (b.getLsbD 0) = b := by
  revert b; decide

theorem readButtons_showButtons (b : BitVec 4) (rest : List Char) :
    readButtons (showButtons b ++ rest) = some (b, rest) := by
  simp only [readButtons, showButtons, List.cons_append, List.nil_append, readBit_showBit, Option.bind_some,
    Option.map_some, ofBool_append_getLsbD]

/-- The end of a line: ` rst` if the tick resets. -/
def showRst (rst : Bool) : List Char := if rst then rstTag else []

/-- A line that omits `rnd` goes on with its end, which does not begin like ` rnd=`. -/
theorem readRnd_showRnd (r : Option Channel) (rst : Bool) :
    readRnd (showRnd r ++ showRst rst) = some (r, showRst rst) := by
  cases r with
  | none => cases rst <;> rfl
  | some c =>
    rw [showRnd, List.append_assoc, readRnd, readExactly_append]
    simp [digitValue_digitChar (show c.val < 10 by omega)]

theorem readRst_showRst (rst : Bool) : readRst (showRst rst) = some rst := by
  cases rst <;> rfl

/-- A line as the pieces the reader takes off one after the other. -/
theorem showLine_eq (l : TickLine) :
    showLine l = ['@'] ++ (showDigits (l.now + 1) l.now ++ (btnTag ++ (showButtons l.btnN ++
      (showRnd l.rnd ++ showRst l.rst)))) := by
  simp [showLine, showButtons, showRst]

theorem readForm_showLine (l : TickLine) : readForm (showLine l) = some l := by
  have htag (rest : List Char) : readDigits l.now (btnTag ++ rest) = (l.now, btnTag ++ rest) := rfl
  simp only [readForm, showLine_eq, readExactly_append, readNumber_showDigits (Nat.lt_succ_self l.now), htag,
    readButtons_showButtons, readRnd_showRnd, readRst_showRst, Option.bind_some, Option.map_some]

/-- Settles O4: the form of the line reads back piece by piece, and its `now` is of the width the check asks for. -/
theorem stimulusLineReadsBack : Obligations.StimulusLineReadsBack := by
  intro p l hwf
  simp [readLine, readForm_showLine, hwf]

end Sys2Proof.Machine

/-! A line that omits `rnd` where the tick reads it (R57, log 7). -/

namespace Sys2Proof.Machine

theorem phaseGate_idle_omittedRnd {s : State} (hp : s.phase = Phase.idle.code) (hr : s.input.rnd = none)
    (due : s.params.tIdleBlink ≤ s.elapsed s.tP) : phaseGate .idle s = .refused .omittedRnd := by
  rw [phaseGate_of_guard hp nofun, if_pos (by exact due), phaseAction_idle_none hr]

theorem phaseGate_gameOn_omittedRnd {s : State} (hp : s.phase = Phase.gameOn.code) (hr : s.input.rnd = none)
    (hc : ¬ s.cnt < s.params.nGameOnToggles) (due : s.params.tGameOnToggle ≤ s.elapsed s.tP) :
    phaseGate .gameOn s = .refused .omittedRnd := by
  rw [phaseGate_of_guard hp nofun, if_pos (by exact due), phaseAction_gameOn_none hc hr]

theorem PollStepFrame.elapsed {s t : State} (f : PollStepFrame s t) (m : Nat) : t.elapsed m = s.elapsed m := by
  simp only [State.elapsed, f.now, f.params]

theorem exec_phIdle (s : State) : exec .phIdle s = phaseGate .idle (pollStep (tPoll s.params .idle) s) := rfl

theorem exec_phGameOn (s : State) : exec .phGameOn s = phaseGate .gameOn (pollStep (tPoll s.params .gameOn) s) := rfl

/-- In GameOn no event does anything, so the poll step leaves the game registers as they were. -/
theorem pollStep_gameOn {s : State} (hp : s.phase = Phase.gameOn.code) (n : Nat) : SameGame s (pollStep n s) :=
  pollStep_quiet (by simp [hp]) (by simp [hp]) (by simp [hp])

/-- Settles O38: both readers of `rnd` stand behind the phase gate, which the poll step reaches with the tick's line and,
in GameOn, with `cnt` and `tP` as they were. -/
theorem omittedRandomIsRefused : Obligations.OmittedRandomIsRefused := by
  intro s hr
  refine ⟨fun hp => ⟨fun due => ?_, _, exec_gatePoll (p := .idle) hp, fun ⟨hp1, due⟩ => ?_⟩,
    fun hp hc due => ⟨?_, ?_⟩⟩
  · rw [exec_gatePhase (p := .idle) hp]
    exact phaseGate_idle_omittedRnd hp hr due
  · have f := pollStep_frame (tPoll s.params .idle) s
    rw [exec_phIdle]
    exact phaseGate_idle_omittedRnd hp1 (f.input ▸ hr) (by rwa [f.params])
  · rw [exec_gatePhase (p := .gameOn) hp]
    exact phaseGate_gameOn_omittedRnd hp hr hc due
  · have f := pollStep_frame (tPoll s.params .gameOn) s
    have g := pollStep_gameOn hp (tPoll s.params .gameOn)
    rw [exec_phGameOn]
    refine phaseGate_gameOn_omittedRnd (g.phase.trans hp) (f.input ▸ hr) ?_ ?_
    · rwa [g.cnt, f.params]
    · rwa [g.tP, f.elapsed, f.params]

end Sys2Proof.Machine

/-! Operations executed by themselves in an illegal phase: the events do nothing (log 15) and the gates refuse (log 10). -/

namespace Sys2Proof.Machine

theorem phaseOf_eq_none_of_illegal {s : State} (h : ¬ s.LegalPhase) : phaseOf s.phase = none :=
  Option.eq_none_iff_forall_ne_some.2 fun p hp => h ⟨p, phaseOf_eq_some.1 hp⟩

theorem phase_ne_code_of_illegal {s : State} (h : ¬ s.LegalPhase) (p : Phase) : s.phase ≠ p.code :=
  fun hp => h ⟨p, hp⟩

theorem eventRelease_other {i : Channel} {s : State} (hgive : s.phase ≠ Phase.give.code)
    (hreceive : s.phase ≠ Phase.receive.code) : eventRelease i s = s := by
  obtain ⟨hp, -⟩ | ⟨hp, -⟩ | ⟨hp, -⟩ | ⟨-, -, e⟩ := eventRelease_cases i s
  · exact absurd hp hgive
  · exact absurd hp hreceive
  · exact absurd hp hreceive
  · exact e

/-- A poll that changes no game register moves the debounce registers only. -/
theorem PollFrame.eq_with_deb {s t : State} (f : PollFrame s t) (g : SameGame s t) : t = { s with deb := t.deb } := by
  obtain ⟨-, htarget, hgiven, htD, hparams, hstim, hticks⟩ := f
  obtain ⟨hphase, hhit, hcnt, htP, hled⟩ := g
  cases t
  subst htarget hgiven htD hparams hstim hticks hphase hhit hcnt htP hled
  rfl

/-- Settles O54: no test of an event holds in a phase that is none of the five, so a poll is its debounce moves alone. -/
theorem eventsHaveNoEffectInAnIllegalPhase : Obligations.EventsHaveNoEffectInAnIllegalPhase := by
  intro s h
  have hne := phase_ne_code_of_illegal h
  refine ⟨fun c => ⟨?_, ?_, ?_, ?_⟩, pollPass s, rfl, ?_, fun c => ?_⟩
  · exact congrArg _ (eventPress_other (hne .idle))
  · exact congrArg _ (eventRelease_other (hne .give) (hne .receive))
  · exact congrArg _ (eventPress_other (s := s.setDeb c .down) (hne .idle))
  · exact congrArg _ (eventRelease_other (s := s.setDeb c .rising) (hne .give) (hne .receive))
  · exact (pollPass_frame s).eq_with_deb
      (pollPass_quiet (hne .idle) (fun h => hne .give h.1) fun h => hne .receive h.1)
  · rw [(pollPass_frame s).deb c]
    cases s.deb.get c <;> cases s.btn c <;> rfl

/-- Settles O32: an illegal code names no phase, so neither gate finds a threshold. -/
theorem gatesRefuseAnIllegalPhase : Obligations.GatesRefuseAnIllegalPhase := by
  intro s h
  have hnone := phaseOf_eq_none_of_illegal h
  exact ⟨by simp [exec, execGatePoll, hnone], by simp [exec, execGatePhase, hnone]⟩

end Sys2Proof.Machine

/-! The wrapping elapsed time of the two gates (R59, R63): what it is, said by its property. -/

namespace Sys2Proof.Machine

/-- Elapsed time leads from the mark to `now`, over the rollover of the clock too (R63). -/
theorem State.mark_add_elapsed_mod (s : State) {m : Nat} (hm : m < 2 ^ s.params.wMs) :
    (m + s.elapsed m) % 2 ^ s.params.wMs = s.now := by
  have hnow := s.now_lt
  rcases Nat.lt_or_ge s.now m with h | h
  · rw [s.elapsed_of_lt hm h, show m + (2 ^ s.params.wMs - (m - s.now)) = s.now + 2 ^ s.params.wMs by omega,
      Nat.add_mod_right, Nat.mod_eq_of_lt hnow]
  · rw [s.elapsed_of_le h, Nat.add_sub_cancel' h, Nat.mod_eq_of_lt hnow]

/-- No other number of the clock's width leads from the mark to `now` (R63): the mark cancels modulo 2^W_MS. -/
theorem State.eq_elapsed_of_mark_add_mod (s : State) {m e : Nat} (hm : m < 2 ^ s.params.wMs)
    (he : e < 2 ^ s.params.wMs) (h : (m + e) % 2 ^ s.params.wMs = s.now) : e = s.elapsed m :=
  have hmod : m + e ≡ m + s.elapsed m [MOD 2 ^ s.params.wMs] := h.trans (s.mark_add_elapsed_mod hm).symm
  (Nat.ModEq.add_left_cancel' m hmod).eq_of_lt_of_lt he (s.elapsed_lt m)

/-- Settles O29: the gate's comparison is with the one number that leads from the mark to `now`, and the corner cases of
R59 are that number where the clock has not moved and where it has wrapped. -/
theorem gateComparesTheElapsedTime : Obligations.GateComparesTheElapsedTime := by
  intro s mark t hmark
  refine ⟨s.elapsed_lt mark, s.mark_add_elapsed_mod hmark, fun e he h => s.eq_elapsed_of_mark_add_mod hmark he h,
    s.gate_eq_true mark t, (s.gate_eq_true mark 0).2 (Nat.zero_le _), fun h => ?_, s.elapsed_of_lt hmark⟩
  have hzero : s.elapsed mark = 0 := by rw [s.elapsed_of_le h.ge, h, Nat.sub_self]
  rw [s.gate_eq_true, hzero, Nat.le_zero]

end Sys2Proof.Machine

/-! The two gates executed by themselves (R60, R61): open, they mark and act; shut, they do nothing. -/

namespace Sys2Proof.Machine

/-- Settles O30: the poll step of the phase's period, which is shut, or marks and then polls; a poll keeps the mark. -/
theorem pollGateMarksAndPolls : Obligations.PollGateMarksAndPolls := by
  intro s p period hp hperiod
  obtain rfl : period = tPoll s.params p := by rw [hperiod]; cases p <;> rfl
  rw [exec_gatePoll hp]
  refine ⟨fun due => ⟨pollPass s.markPoll, ?_, rfl, (pollPass_frame s.markPoll).tD⟩, fun early => ?_⟩
  · rw [pollStep_open due]
  · rw [pollStep_closed early]

/-- GATE.PHASE where the handler's guard holds: the gate's comparison decides between the mark with the action, and
nothing (R61). -/
theorem exec_gatePhase_of_guard {p : Phase} {s : State} (hp : s.phase = p.code) (hg : p = .receive → s.hit = false) :
    exec .gatePhase s = if tAction s.params p ≤ s.elapsed s.tP then phaseAction p s.markPhase else .next s :=
  (exec_gatePhase hp).trans (phaseGate_of_guard hp hg)

theorem exec_gatePhase_due {p : Phase} {s : State} (hp : s.phase = p.code) (hg : p = .receive → s.hit = false)
    (due : tAction s.params p ≤ s.elapsed s.tP) : exec .gatePhase s = phaseAction p s.markPhase :=
  (exec_gatePhase_of_guard hp hg).trans (if_pos due)

theorem exec_gatePhase_early {p : Phase} {s : State} (hp : s.phase = p.code) (hg : p = .receive → s.hit = false)
    (early : s.elapsed s.tP < tAction s.params p) : exec .gatePhase s = .next s :=
  (exec_gatePhase_of_guard hp hg).trans (if_neg (Nat.not_le.2 early))

/-- In Receive a standing hit shuts the phase gate, whatever time has passed: the exit is the hit's (R82). -/
theorem exec_gatePhase_receive_hit {s : State} (hp : s.phase = Phase.receive.code) (hh : s.hit = true) :
    exec .gatePhase s = .next s := by
  rw [exec_gatePhase hp]
  obtain ⟨-, hg, -⟩ | ⟨-, e⟩ := phaseGate_cases .receive s
  · simp [hh] at hg
  · exact e

/-- Settles O31: each phase's key fixes the guard and the threshold, and an open gate is the action of that phase on the
marked state. -/
theorem phaseGateMarksAndActs : Obligations.PhaseGateMarksAndActs := by
  intro s hw
  refine ⟨fun hp => ⟨fun due r hr => ?_, exec_gatePhase_early (p := .idle) hp nofun⟩,
    fun hp => ⟨fun due => ⟨fun hc => ?_, fun hc r hr => ?_⟩, exec_gatePhase_early (p := .gameOn) hp nofun⟩,
    fun hp => exec_gatePhase_of_guard (p := .give) hp nofun, fun hp => ?receive, fun hp => ?lost⟩
  · exact (exec_gatePhase_due (p := .idle) hp nofun due).trans (phaseAction_idle hr)
  · exact (exec_gatePhase_due (p := .gameOn) hp nofun due).trans (phaseAction_gameOn hw hc)
  · exact (exec_gatePhase_due (p := .gameOn) hp nofun due).trans (phaseAction_gameOn_exit hc hr)
  case receive =>
    cases hh : s.hit with
    | true => simpa using exec_gatePhase_receive_hit hp hh
    | false =>
      rw [exec_gatePhase_of_guard (p := .receive) hp fun _ => hh, phaseAction_receive]
      simp [tAction, hh]
  case lost =>
    rw [exec_gatePhase_of_guard (p := .lost) hp nofun]
    by_cases hc : s.cnt < s.params.nLostToggles
    · rw [phaseAction_lost hw hc, if_pos hc]
      rfl
    · rw [phaseAction_lost_exit hc, if_neg hc]
      rfl

end Sys2Proof.Machine

/-! The debounce rows executed by themselves (R65 to R72): each is one write of its channel's register, and the rows with an
event raise it after that write. -/

namespace Sys2Proof

@[simp] theorem DebFile.set_set (d : DebFile) (i : Channel) (v w : DebState) : (d.set i v).set i w = d.set i w := by
  fin_cases i <;> rfl

namespace Machine

@[simp] theorem State.setDeb_setDeb (i : Channel) (v w : DebState) (s : State) :
    (s.setDeb i v).setDeb i w = s.setDeb i w :=
  congrArg (fun d => { s with deb := d }) (s.deb.set_set i v w)

theorem State.setDeb_of_get {i : Channel} {v : DebState} {s : State} (h : s.deb.get i = v) : s.setDeb i v = s :=
  congrArg (fun d => { s with deb := d }) (h ▸ s.deb.set_get_self i)

/-- RELEASE writes no register but `phase`, `hit` and `led` (R86). -/
theorem eventRelease_eq_with (i : Channel) (s : State) :
    eventRelease i s =
      { s with phase := (eventRelease i s).phase, hit := (eventRelease i s).hit, led := (eventRelease i s).led } := by
  obtain ⟨-, -, h⟩ | ⟨-, -, -, h⟩ | ⟨-, -, -, h⟩ | ⟨-, -, h⟩ := eventRelease_cases i s <;> rw [h] <;> rfl

/-- Every debounce row writes one fixed value to its channel's register; what follows, an event or nothing, starts from
the state after that write. -/
theorem exec_debRow_eq_after_setDeb {c : Channel} {i : Instr}
    (h : i ∈ [Instr.debDown0 c, .debDown1 c, .debUp0 c, .debUp1 c, .debFall0 c, .debFall1 c, .debRise0 c, .debRise1 c]) :
    ∃ (v : DebState) (e : State → State), ∀ s, exec i s = .next (e (s.setDeb c v)) := by
  simp only [List.mem_cons, List.not_mem_nil, or_false] at h
  obtain rfl | rfl | rfl | rfl | rfl | rfl | rfl | rfl := h
  · exact ⟨.down, id, fun _ => rfl⟩
  · exact ⟨.rising, eventRelease c, fun _ => rfl⟩
  · exact ⟨.falling, id, fun _ => rfl⟩
  · exact ⟨.up, id, fun _ => rfl⟩
  · exact ⟨.down, eventPress c, fun _ => rfl⟩
  · exact ⟨.up, id, fun _ => rfl⟩
  · exact ⟨.down, id, fun _ => rfl⟩
  · exact ⟨.up, id, fun _ => rfl⟩

/-- Settles O18: the row's own write covers whatever its channel's register held. -/
theorem debounceRowsActAlikeInEveryDebounceState : Obligations.DebounceRowsActAlikeInEveryDebounceState := by
  intro c s d i hi
  obtain ⟨v, e, hexec⟩ := exec_debRow_eq_after_setDeb hi
  refine ⟨?_, _, hexec s⟩
  calc exec i (s.setDeb c d)
      _ = .next (e ((s.setDeb c d).setDeb c v)) := hexec _
      _ = .next (e (s.setDeb c v)) := by rw [State.setDeb_setDeb]
      _ = exec i s := (hexec s).symm

/-- Settles O16: a row without an event is the register write alone. -/
theorem debounceTransitionsWithoutEvent : Obligations.DebounceTransitionsWithoutEvent := by
  intro c s i d v hi _
  have hexec : exec i s = .next (s.setDeb c v) := by
    simp only [List.mem_cons, List.not_mem_nil, or_false, Prod.mk.injEq] at hi
    obtain ⟨rfl, -, rfl⟩ | ⟨rfl, -, rfl⟩ | ⟨rfl, -, rfl⟩ | ⟨rfl, -, rfl⟩ | ⟨rfl, -, rfl⟩ | ⟨rfl, -, rfl⟩ := hi <;> rfl
  exact ⟨_, hexec, s.deb.get_set_self c v, fun j hj => s.deb.get_set_ne v hj, rfl⟩

/-- Settles O17: the value written is the one the register holds. -/
theorem stableSamplesChangeNothing : Obligations.StableSamplesChangeNothing :=
  fun _ _ => ⟨fun h => congrArg _ (State.setDeb_of_get h), fun h => congrArg _ (State.setDeb_of_get h)⟩

/-- Settles O19: PRESS leaves the debounce registers as the write of Down left them, and acts in Idle only. -/
theorem confirmedPressGoesDownAndRaisesPress : Obligations.ConfirmedPressGoesDownAndRaisesPress := by
  intro c s _ _
  have hdeb : (eventPress c (s.setDeb c .down)).deb = s.deb.set c .down := (eventPress_frame c _).deb
  refine ⟨eventPress c (s.setDeb c .down), rfl, ?_, fun j hj => ?_, fun hidle => ?_, fun hother => ?_⟩
  · rw [hdeb, DebFile.get_set_self]
  · rw [hdeb, s.deb.get_set_ne _ hj]
  · rw [hdeb, eventPress_idle (s := s.setDeb c .down) hidle]
    rfl
  · rw [hdeb]
    exact eventPress_other (s := s.setDeb c .down) hother

/-- Settles O20: RELEASE is executed in the state with the channel at Rising and leaves its debounce registers alone. -/
theorem firstReleasedSampleRaisesRelease : Obligations.FirstReleasedSampleRaisesRelease := by
  intro c s _ _
  have hdeb : (eventRelease c (s.setDeb c .rising)).deb = s.deb.set c .rising := (eventRelease_frame c _).deb
  refine ⟨eventRelease c (s.setDeb c .rising), rfl, ?_, fun j hj => ?_, ?_, ?_⟩
  · rw [hdeb, DebFile.get_set_self]
  · rw [hdeb, s.deb.get_set_ne _ hj]
  · rw [hdeb]
    rfl
  · rw [hdeb]
    exact eventRelease_eq_with c (s.setDeb c .rising)

end Machine

end Sys2Proof

/-! A poll as the four rows its keys select (R73), and what it does to one channel (R76). -/

namespace Sys2Proof.Machine

@[simp] theorem debStep_btn (i j : Channel) (s : State) : (debStep i s).btn j = s.btn j :=
  State.btn_congr (debStep_frame i s).stim (debStep_frame i s).ticks j

/-- One debounce step of a poll is exec of the operation that the channel's key decodes to (R50, R73). -/
theorem exists_decodeWord_exec_debStep (i : Channel) (s : State) :
    ∃ op, decodeWord ⟨.deb, i, (debKey (s.deb.get i) (s.btn i)).toNat⟩ = .ok op ∧ exec op s = .next (debStep i s) := by
  unfold debStep
  cases s.deb.get i <;> cases s.btn i <;> exact ⟨_, rfl, rfl⟩

/-- Settles O23: the pass is four debounce steps, each the operation of its channel's key; none moves a sample. -/
theorem pollRunsTheSelectedRulesInOrder : Obligations.PollRunsTheSelectedRulesInOrder := by
  intro s _
  obtain ⟨i0, hword0, hexec0⟩ := exists_decodeWord_exec_debStep 0 s
  obtain ⟨i1, hword1, hexec1⟩ := exists_decodeWord_exec_debStep 1 (debStep 0 s)
  obtain ⟨i2, hword2, hexec2⟩ := exists_decodeWord_exec_debStep 2 (debStep 1 (debStep 0 s))
  obtain ⟨i3, hword3, hexec3⟩ := exists_decodeWord_exec_debStep 3 (debStep 2 (debStep 1 (debStep 0 s)))
  simp only [debStep_btn] at hword1 hword2 hword3
  exact ⟨i0, i1, i2, i3, _, _, _, _, hword0, hexec0, hword1, hexec1, hword2, hexec2, hword3, hexec3, rfl⟩

/-- Settles O24: the frame of a poll pass, with the table written in the order of the rules. -/
theorem pollMovesEachChannelByItsOwnSample : Obligations.PollMovesEachChannelByItsOwnSample := by
  intro s _
  obtain ⟨hdeb, htarget, hgiven, htD, hparams, hstim, hticks⟩ := pollPass_frame s
  refine ⟨pollPass s, rfl, fun c => ?_, htarget, hgiven, htD, hparams, hstim, hticks⟩
  rw [hdeb c]
  cases s.deb.get c <;> cases s.btn c <;> rfl

/-- Settles O25: a closed poll gate makes the poll step nothing, and no phase step writes a debounce register. -/
theorem debounceRegistersMoveOnlyInAPoll : Obligations.DebounceRegistersMoveOnlyInAPoll := by
  intro s t p hp hrst hclosed h
  obtain ⟨-, hstep⟩ := tick_run hp hrst h
  rw [pollStep_closed hclosed] at hstep
  exact (phaseStep_frame hstep).deb

end Sys2Proof.Machine

/-! One channel over successive polls (R75): what must have been sampled before a PRESS can be raised. -/

namespace Sys2Proof.Machine

/-- Falling is entered from Up only, on a pressed sample (R65). -/
theorem debNext_eq_falling_iff {d : DebState} {b : Bool} : debNext d b = .falling ↔ d = .up ∧ b = false := by
  cases d <;> cases b <;> decide

theorem get_deb_of_exec_poll {s m : State} (h : exec .poll s = .next m) (c : Channel) :
    m.deb.get c = debNext (s.deb.get c) (s.btn c) := by
  cases h
  exact (pollPass_frame s).deb c

/-- Settles O27: the register the poll left is Falling, which the table enters from Up on a pressed sample only. -/
theorem pressNeedsTwoPressedPolls : Obligations.PressNeedsTwoPressedPolls := by
  intro s m s2 c hpoll hget ⟨hfalling, _⟩
  rw [hget, get_deb_of_exec_poll hpoll] at hfalling
  exact (debNext_eq_falling_iff.1 hfalling).symm

/-- Along a trace the channel's register moves by the debounce table. -/
theorem pollTrace_cons_cons {c : Channel} {a b : State} {l : List State} (h : PollTrace c (a :: b :: l)) :
    b.deb.get c = debNext (a.deb.get c) (a.btn c) ∧ PollTrace c (b :: l) := by
  obtain ⟨⟨m, hpoll, hget⟩, htail⟩ := h
  exact ⟨hget.trans (get_deb_of_exec_poll hpoll c), htail⟩

/-- Two consecutive states of the list sample the channel released. -/
def HasTwoReleased (c : Channel) (l : List State) : Prop :=
  ∃ (l1 l2 : List State) (x y : State), l = l1 ++ x :: y :: l2 ∧ x.btn c = true ∧ y.btn c = true

theorem HasTwoReleased.cons {c : Channel} {l : List State} (h : HasTwoReleased c l) (a : State) :
    HasTwoReleased c (a :: l) := by
  obtain ⟨l1, l2, x, y, rfl, hx, hy⟩ := h
  exact ⟨a :: l1, l2, x, y, rfl, hx, hy⟩

/-- On the way from a pressed channel to Falling two consecutive samples are released. From Rising, whose sample before
was released, one more may be enough: so the induction over the trace carries both starting points. -/
theorem hasTwoReleased_of_pollTrace {c : Channel} {z : State} (hz : z.deb.get c = .falling) (mid : List State) (a : State)
    (h : PollTrace c (a :: mid ++ [z])) :
    (a.deb.get c = .down → HasTwoReleased c (a :: mid)) ∧
    (a.deb.get c = .rising → a.btn c = true ∨ HasTwoReleased c (a :: mid)) := by
  induction mid generalizing a with
  | nil =>
    have hup := debNext_eq_falling_iff.1 ((pollTrace_cons_cons h).1.symm.trans hz)
    simp [hup.1]
  | cons b mid ih =>
    obtain ⟨hb, htail⟩ := pollTrace_cons_cons h
    obtain ⟨ihDown, ihRising⟩ := ih b htail
    cases hbtn : a.btn c with
    | false =>
      refine ⟨fun ha => (ihDown ?_).cons a, fun ha => .inr ((ihDown ?_).cons a)⟩ <;> rw [hb, ha, hbtn] <;> rfl
    | true =>
      refine ⟨fun ha => ?_, fun _ => .inl rfl⟩
      obtain hbtn' | htwo := ihRising (by rw [hb, ha, hbtn]; rfl)
      · exact ⟨[], mid, a, b, rfl, hbtn, hbtn'⟩
      · exact htwo.cons a

/-- Settles O28: a channel that is Down at first and at Falling when the PRESS is raised. -/
theorem twoReleasedPollsBetweenPresses : Obligations.TwoReleasedPollsBetweenPresses :=
  fun _ a _ mid htrace hdown hdue => (hasTwoReleased_of_pollTrace hdue.1 mid a htrace).1 hdown

end Sys2Proof.Machine

/-! The invariant of R88 and R89: every step keeps it, and from a state that meets it no tick on a line with `rnd` stops. -/

namespace Sys2Proof.Machine

/-- What R89 says of a phase's registers, but for `hit`, which between the poll step and the hit exit may be 1 in Receive. -/
def PhaseValues (p : Phase) (s : State) : Prop :=
  match p with
  | .idle => s.cnt = 0 ∧ (s.led = 0b0000#4 ∨ ∃ j, s.led = onehot j)
  | .gameOn => s.cnt ≤ s.params.nGameOnToggles ∧ LedLegal s.led
  | .give => s.led = 0b0000#4 ∧ s.cnt = 0 ∧ (s.params.givenClearOnGive = true → s.given = false)
  | .receive => s.led = onehot s.target ∧ s.given = true ∧ s.cnt = 0
  | .lost => (s.led = 0b0000#4 ∨ s.led = onehot s.target) ∧ s.cnt ≤ s.params.nLostToggles

theorem GameInv.phaseValues {s : State} {p : Phase} (g : GameInv s) (hp : s.phase = p.code) :
    PhaseValues p s ∧ (p = .receive → s.hit = false) := by
  cases p with
  | idle => exact ⟨g.idle hp, nofun⟩
  | gameOn => exact ⟨g.gameOn hp, nofun⟩
  | give => exact ⟨g.give hp, nofun⟩
  | receive =>
    obtain ⟨hled, hgiven, hhit, hcnt⟩ := g.receive hp
    exact ⟨⟨hled, hgiven, hcnt⟩, fun _ => hhit⟩
  | lost => exact ⟨g.lost hp, nofun⟩

theorem gameInv_of_phaseValues {s : State} {p : Phase} (hw : s.params.wf = true) (hfit : RegistersFit s)
    (hp : s.phase = p.code) (hv : PhaseValues p s) (hhit : p = .receive → s.hit = false) : GameInv s := by
  have values (q : Phase) (hq : s.phase = q.code) : PhaseValues q s := Phase.code_inj.1 (hp.symm.trans hq) ▸ hv
  refine ⟨hw, hfit, ⟨p, hp⟩, values .idle, values .gameOn, values .give, fun hq => ?_, values .lost⟩
  obtain ⟨hled, hgiven, hcnt⟩ := values .receive hq
  exact ⟨hled, hgiven, hhit (Phase.code_inj.1 (hp.symm.trans hq)), hcnt⟩

theorem PhaseValues.congr {p : Phase} {s t : State} (hv : PhaseValues p s) (hparams : t.params = s.params)
    (htarget : t.target = s.target) (hgiven : t.given = s.given) (hcnt : t.cnt = s.cnt) (hled : t.led = s.led) :
    PhaseValues p t := by
  cases p <;> simpa only [PhaseValues, hparams, htarget, hgiven, hcnt, hled] using hv

theorem ledLegal_off : LedLegal 0b0000#4 := .inl rfl

/-- The poll step leaves the values of the phase it leaves the block in, and it does not enter Receive. -/
theorem PollEffect.phaseValues {n : Nat} {p : Phase} {s m : State} (e : PollEffect n p s m) (f : PollStepFrame s m)
    (hp : s.phase = p.code) (hv : PhaseValues p s) :
    ∃ q, m.phase = q.code ∧ PhaseValues q m ∧ (q = .receive → p = .receive) := by
  cases e with
  | quiet g =>
    exact ⟨p, g.phase.trans hp, hv.congr f.params f.target f.given g.cnt g.led, id⟩
  | started hi _ _ _ _ hphase hcnt _ _ hled =>
    subst hi
    refine ⟨.gameOn, hphase, ⟨by omega, ?_⟩, nofun⟩
    rw [hled]
    exact hv.2.imp_right .inr
  | premature hg _ _ _ _ _ hphase hcnt _ _ hled =>
    subst hg
    obtain ⟨hoff, hzero, -⟩ := hv
    exact ⟨.lost, hphase, ⟨.inl (hled.trans hoff), by omega⟩, nofun⟩
  | hit hr _ _ _ _ _ _ hphase hcnt _ _ hled =>
    subst hr
    exact ⟨.receive, hphase, hv.congr f.params f.target f.given hcnt hled, id⟩
  | wrong hr _ _ _ _ _ _ hphase hcnt _ _ hled =>
    subst hr
    obtain ⟨-, -, hzero⟩ := hv
    exact ⟨.lost, hphase, ⟨.inl hled, by omega⟩, nofun⟩

/-- The phase step leaves the values of the phase it leaves the block in, and a hit stands in Receive no longer. -/
theorem PhaseEffect.phaseValues {p q : Phase} {m u : State} (e : PhaseEffect p m u) (hq : m.phase = q.code)
    (hv : PhaseValues q m) (hqp : q = .receive → p = .receive) :
    ∃ q', u.phase = q'.code ∧ PhaseValues q' u ∧ (q' = .receive → u.hit = false) := by
  have values {q' : Phase} (hq' : m.phase = q'.code) : PhaseValues q' m := Phase.code_inj.1 (hq.symm.trans hq') ▸ hv
  cases e with
  | same hno h =>
    subst h
    refine ⟨q, hq, hv, fun hr => ?_⟩
    subst hr
    simpa [hqp rfl, hq] using hno
  | hitExit _ h1 _ h =>
    subst h
    obtain ⟨-, -, hzero⟩ := values h1
    exact ⟨.gameOn, rfl, ⟨hzero.trans_le (Nat.zero_le _), ledLegal_off⟩, nofun⟩
  | blink _ h1 _ r _ h =>
    subst h
    exact ⟨.idle, h1, ⟨(values h1).1, .inr ⟨r, rfl⟩⟩, nofun⟩
  | toggle _ h1 _ hc v hv' h =>
    subst h
    exact ⟨.gameOn, h1, ⟨hc, hv'.elim (.inr ∘ .inl) .inl⟩, nofun⟩
  | give _ _ _ _ r _ h =>
    subst h
    exact ⟨.give, rfl, ⟨rfl, rfl, fun hclear => if_pos hclear⟩, nofun⟩
  | mole _ h1 _ h =>
    subst h
    exact ⟨.receive, rfl, ⟨rfl, rfl, (values h1).2.1⟩, fun _ => rfl⟩
  | timeout _ h1 _ _ h =>
    subst h
    obtain ⟨-, -, hzero⟩ := values h1
    exact ⟨.lost, rfl, ⟨.inl rfl, hzero.trans_le (Nat.zero_le _)⟩, nofun⟩
  | lostToggle _ h1 _ hc v hv' h =>
    subst h
    exact ⟨.lost, h1, ⟨hv'.symm, hc⟩, nofun⟩
  | idle _ _ _ _ h =>
    subst h
    exact ⟨.idle, rfl, ⟨rfl, .inl rfl⟩, nofun⟩

theorem gameInv_resetRegs {s : State} (hw : s.params.wf = true) : GameInv s.resetRegs :=
  gameInv_of_phaseValues (p := .idle) hw ⟨Nat.two_pow_pos _, Nat.two_pow_pos _, Nat.two_pow_pos _⟩ rfl
    ⟨rfl, .inl rfl⟩ nofun

/-- The next input line is no register, so the invariant does not speak of it. -/
theorem GameInv.advance {s : State} (g : GameInv s) : GameInv s.advance :=
  ⟨g.params, ⟨g.fit.cnt, g.fit.tD, g.fit.tP⟩, g.legal, g.idle, g.gameOn, g.give, g.receive, g.lost⟩

theorem GameInv.tick {s u : State} (g : GameInv s) (h : exec .tick s = .next u) : GameInv u := by
  cases hrst : s.rst with
  | true =>
    rw [show exec .tick s = _ from execTick_reset g.params hrst] at h
    cases h
    exact gameInv_resetRegs g.params
  | false =>
    obtain ⟨p, m, hp, -, -, f, epoll, ephase, -⟩ := tick_effect hrst h
    obtain ⟨q, hq, hv, hqp⟩ := epoll.phaseValues f hp (g.phaseValues hp).1
    obtain ⟨q', hq', hv', hhit⟩ := ephase.phaseValues hq hv hqp
    refine gameInv_of_phaseValues ?_ (registersStayWithinTheirWidths .tick s u g.fit h) hq' hv' hhit
    rw [(noOperationWritesParametersOrInputs .tick s u h).params]
    exact g.params

/-- Settles O51: a tick keeps the values phase by phase, first over the poll step, then over the phase step. -/
theorem everyStepKeepsTheGameInvariant : Obligations.EveryStepKeepsTheGameInvariant := by
  intro s t g h
  obtain ⟨u, hu, rfl⟩ := step_eq_next h
  exact (g.tick hu).advance

/-- Settles O52: the reset state is the state a reset load leaves. -/
theorem resetMeetsTheGameInvariant : Obligations.ResetMeetsTheGameInvariant :=
  gameInv_resetRegs (s := .reset) (by decide)

/-- A handler can stop for an illegal phase and for an omitted `rnd` only. -/
theorem exists_handler_eq_next {s : State} (hlegal : s.LegalPhase) (hrnd : s.RndGiven) : ∃ t, handler s = .next t := by
  cases h : handler s with
  | next t => exact ⟨t, rfl⟩
  | fault f => cases f
  | refused r =>
    obtain ⟨p, hp⟩ := hlegal
    obtain ⟨c, hc⟩ := hrnd
    obtain ⟨hnone, -⟩ | ⟨hnone, -⟩ := handler_refused h
    · simp [hp] at hnone
    · simp [hc] at hnone

/-- Settles O6: a reset load never stops, and without a reset the tick is the handler its phase key decodes to. -/
theorem tickCompletes : Obligations.TickCompletes := by
  intro s hw hgo
  have ⟨t, ht, hdecoded⟩ : ∃ t, exec .tick s = .next t ∧ (s.rst = false → exec (decodePh s.phase) s = .next t) := by
    cases hrst : s.rst with
    | true => exact ⟨_, execTick_reset hw hrst, nofun⟩
    | false =>
      obtain ⟨hlegal, hrnd⟩ := hgo.resolve_left (by simp [hrst])
      obtain ⟨t, ht⟩ := exists_handler_eq_next hlegal hrnd
      exact ⟨t, (execTick_run hw hrst).trans ht, fun _ => (handler_eq_exec s).symm.trans ht⟩
  exact ⟨t, ht, noOperationWritesParametersOrInputs .tick s t ht, hdecoded⟩

/-- Settles O14: the invariant holds what a tick needs to complete, and the tick keeps it. -/
theorem goodStatesNeverStop : Obligations.GoodStatesNeverStop := by
  intro s g hrnd
  obtain ⟨t, ht, -⟩ := tickCompletes s g.params (.inr ⟨g.legal, hrnd⟩)
  exact ⟨t.advance, congrArg afterTick ht, (g.tick ht).advance⟩

/-- Settles O39: each of the five operations is the one its phase's key decodes to, which is the handler. -/
theorem handlersCompleteInTheirPhase : Obligations.HandlersCompleteInTheirPhase := by
  intro s i p hrnd hp hi
  have hdecode : i = decodePh s.phase := by
    rw [hp]
    simp only [List.mem_cons, List.not_mem_nil, or_false, Prod.mk.injEq] at hi
    obtain ⟨rfl, rfl⟩ | ⟨rfl, rfl⟩ | ⟨rfl, rfl⟩ | ⟨rfl, rfl⟩ | ⟨rfl, rfl⟩ := hi <;> rfl
  obtain ⟨t, ht⟩ := exists_handler_eq_next ⟨p, hp⟩ hrnd
  rw [handler_eq_exec, ← hdecode] at ht
  exact ⟨t, ht, noOperationWritesParametersOrInputs i s t ht⟩

end Sys2Proof.Machine

/-! What a tick without reset can do, poll step and phase step taken together (R77, R78): the edges of the phase graph
(R87), the writers of the two timestamps (R95) and of the two flags (R92). -/

namespace Sys2Proof.Machine

/-- An event that has moved the phase shuts the phase step's guard (R78). -/
theorem PhaseEffect.eq_of_phase_ne {p : Phase} {m u : State} (e : PhaseEffect p m u) (h : m.phase ≠ p.code) : u = m := by
  cases e with
  | same _ he => exact he
  | hitExit hp h1 | blink hp h1 | toggle hp h1 | give hp h1 | mole hp h1 | timeout hp h1 | lostToggle hp h1
  | idle hp h1 => exact absurd (hp ▸ h1) h

/-- A hit that stands in Receive leaves by the hit exit (R82). -/
theorem PhaseEffect.eq_hitExit {m u : State} (e : PhaseEffect .receive m u) (hp : m.phase = Phase.receive.code)
    (hh : m.hit = true) : u = { m with led := 0b0000#4, phase := 0b001#3 } := by
  cases e with
  | same hno => exact absurd ⟨rfl, hp, hh⟩ hno
  | hitExit _ _ _ h => exact h
  | timeout _ _ hno => rw [hh] at hno; cases hno
  | blink hp | toggle hp | give hp | mole hp | lostToggle hp | idle hp => cases hp

/-- All a tick without reset that goes on can be: no event acts and the phase step follows; or an event of the poll
decides the tick, the phase step adding nothing but the hit exit. -/
inductive TickEffect (p : Phase) (s u : State) : Prop
  | quiet (m : State) (f : PollStepFrame s m) (g : SameGame s m) (e : PhaseEffect p m u)
  | started (hp : p = .idle) (hn : s.params.tPollIdle ≤ s.elapsed s.tD) (c : Channel) (due : s.pressDue c)
      (phase : u.phase = Phase.gameOn.code) (tP : u.tP = s.now)
  | premature (hp : p = .give) (hg : s.given = false) (hn : s.params.tPollActive ≤ s.elapsed s.tD) (c : Channel)
      (due : s.releaseDue c) (phase : u.phase = Phase.lost.code) (tP : u.tP = s.tP)
  | hit (hp : p = .receive) (hn : s.params.tPollActive ≤ s.elapsed s.tD) (c : Channel) (due : s.releaseDue c)
      (hl : s.led = onehot c) (phase : u.phase = Phase.gameOn.code) (tP : u.tP = s.tP)
  | wrong (hp : p = .receive) (hh : s.hit = false) (hn : s.params.tPollActive ≤ s.elapsed s.tD) (c : Channel)
      (due : s.releaseDue c) (hl : s.led ≠ onehot c) (phase : u.phase = Phase.lost.code) (tP : u.tP = s.tP)

theorem exists_tickEffect {s u : State} (hr : s.rst = false) (h : exec .tick s = .next u) :
    ∃ p : Phase, s.phase = p.code ∧ TickEffect p s u := by
  obtain ⟨p, m, hp, -, -, f, epoll, ephase, -⟩ := tick_effect hr h
  refine ⟨p, hp, ?_⟩
  cases epoll with
  | quiet g => exact .quiet m f g ephase
  | started hi hn c hd hb phase _ tP =>
    subst hi
    obtain rfl := ephase.eq_of_phase_ne (by simp [phase])
    exact .started rfl hn c ⟨hd, hb⟩ phase tP
  | premature hi hg hn c hd hb phase _ tP =>
    subst hi
    obtain rfl := ephase.eq_of_phase_ne (by simp [phase])
    exact .premature rfl hg hn c ⟨hd, hb⟩ phase tP
  | hit hi _ hn c hd hb hl phase _ tP hit =>
    subst hi
    obtain rfl := ephase.eq_hitExit phase hit
    exact .hit rfl hn c ⟨hd, hb⟩ hl rfl tP
  | wrong hi hh hn c hd hb hl phase _ tP =>
    subst hi
    obtain rfl := ephase.eq_of_phase_ne (by simp [phase])
    exact .wrong rfl hh hn c ⟨hd, hb⟩ hl phase tP

/-- Settles O45: where no event acts, the phase step finds the registers of the tick's start and takes one of the edges
with a condition of its own; the events take the others. -/
theorem phaseChangesFollowTheGraph : Obligations.PhaseChangesFollowTheGraph := by
  intro s t hr h hne due polled
  obtain ⟨u, hu, rfl⟩ := step_eq_next h
  obtain ⟨p, hp, e⟩ := exists_tickEffect hr hu
  cases e with
  | quiet m f g e =>
    have hdue : m.elapsed m.tP = due := by rw [f.elapsed, g.tP]
    cases e with
    | same _ he | blink _ _ _ _ _ he | toggle _ _ _ _ _ _ he | lostToggle _ _ _ _ _ _ he =>
      subst he
      exact absurd g.phase hne
    | give _ h1 hgate hc _ _ he =>
      subst he
      rw [g.phase] at h1
      rw [hdue, f.params] at hgate
      rw [g.cnt, f.params, Nat.not_lt] at hc
      right; left
      exact ⟨h1, rfl, hgate, hc⟩
    | mole _ h1 hgate he =>
      subst he
      rw [g.phase] at h1
      rw [hdue, f.params] at hgate
      right; right; left
      exact ⟨h1, rfl, hgate⟩
    | hitExit _ h1 hh he =>
      subst he
      rw [g.phase] at h1
      rw [g.hit] at hh
      right; right; right; right; left
      exact ⟨h1, rfl, .inl hh⟩
    | timeout _ h1 hh hgate he =>
      subst he
      rw [g.phase] at h1
      rw [g.hit] at hh
      rw [hdue, f.params] at hgate
      right; right; right; right; right; left
      exact ⟨h1, rfl, hh, .inl hgate⟩
    | idle _ h1 hgate hc he =>
      subst he
      rw [g.phase] at h1
      rw [hdue, f.params] at hgate
      rw [g.cnt, f.params, Nat.not_lt] at hc
      right; right; right; right; right; right
      exact ⟨h1, rfl, hgate, hc⟩
  | started hi hn c hc phase =>
    subst hi
    left
    exact ⟨hp, phase, hn, c, hc⟩
  | premature hi hg hn c hc phase =>
    subst hi
    right; right; right; left
    exact ⟨hp, phase, hg, hn, c, hc⟩
  | hit hi hn c hc hl phase =>
    subst hi
    right; right; right; right; left
    exact ⟨hp, phase, .inr ⟨hn, c, hc, hl⟩⟩
  | wrong hi hh hn c hc hl phase =>
    subst hi
    right; right; right; right; right; left
    exact ⟨hp, phase, hh, .inr ⟨hn, c, hc, hl⟩⟩

/-- The phase step writes `tD` on the return to Idle only (R83), which is its one way out of Lost. -/
theorem PhaseEffect.tD_cases {p : Phase} {m u : State} (e : PhaseEffect p m u) :
    (u.tD = m.now ∧ p = .lost ∧ u.phase = Phase.idle.code) ∨ (u.tD = m.tD ∧ (p = .lost → u.phase = m.phase)) := by
  cases e with
  | idle hp _ _ _ h => subst h; exact .inl ⟨rfl, hp, rfl⟩
  | same _ h => subst h; exact .inr ⟨rfl, fun _ => rfl⟩
  | lostToggle _ _ _ _ _ _ h => subst h; exact .inr ⟨rfl, fun _ => rfl⟩
  | hitExit hp _ _ h | blink hp _ _ _ _ h | toggle hp _ _ _ _ _ h | give hp _ _ _ _ _ h | mole hp _ _ h
  | timeout hp _ _ _ h => subst hp h; exact .inr ⟨rfl, nofun⟩

/-- In Lost no event does anything, so the poll step leaves the game registers as they were. -/
theorem pollStep_lost {s : State} (hp : s.phase = Phase.lost.code) (n : Nat) : SameGame s (pollStep n s) :=
  pollStep_quiet (by simp [hp]) (by simp [hp]) (by simp [hp])

/-- `tD` in a tick (R95): written by the return to Idle; else written if the poll gate is open, and kept if not. -/
theorem tick_tD_cases {p : Phase} {s u : State} (hr : s.rst = false) (hp : s.phase = p.code)
    (h : exec .tick s = .next u) :
    (u.tD = s.now ∧ p = .lost ∧ u.phase = Phase.idle.code) ∨
    (¬ (p = .lost ∧ u.phase = Phase.idle.code) ∧
      ((tPoll s.params p ≤ s.elapsed s.tD ∧ u.tD = s.now) ∨ (s.elapsed s.tD < tPoll s.params p ∧ u.tD = s.tD))) := by
  obtain ⟨q, m, hq, -, rfl, f, -, e, -⟩ := tick_effect hr h
  obtain rfl := Phase.code_inj.1 (hp.symm.trans hq)
  obtain ⟨htD, hi⟩ | ⟨htD, hstay⟩ := e.tD_cases
  · exact .inl ⟨htD.trans f.now, hi⟩
  · rw [htD]
    refine .inr ⟨?_, pollStep_tD _ s⟩
    rintro ⟨rfl, hidle⟩
    rw [hstay rfl, (pollStep_lost hp _).phase, hp, Phase.code_inj] at hidle
    cases hidle

/-- The three ways of `tP` in a tick (R95): kept; written by the PRESS that leaves Idle; written by the phase gate, which
is then due and is on neither of the ways out that leave `tP`. -/
theorem TickEffect.tP_cases {p : Phase} {s u : State} (hp : s.phase = p.code) (e : TickEffect p s u) :
    (u.tP = s.tP ∧ ¬ (p = .idle ∧ u.phase = Phase.gameOn.code) ∧ ¬ (p = .lost ∧ u.phase = Phase.idle.code)) ∨
    (u.tP = s.now ∧ p = .idle ∧ u.phase = Phase.gameOn.code) ∨
    (u.tP = s.now ∧ tAction s.params p ≤ s.elapsed s.tP ∧
      ¬ (p = .give ∧ u.phase = Phase.lost.code) ∧ ¬ (p = .receive ∧ u.phase = Phase.gameOn.code)) := by
  cases e with
  | quiet m f g e =>
    have hdue : m.elapsed m.tP = s.elapsed s.tP := by rw [f.elapsed, g.tP]
    cases e with
    | same _ h =>
      subst h
      rw [g.phase, hp, Phase.code_inj, Phase.code_inj]
      exact .inl ⟨g.tP, by rintro ⟨rfl, ⟨⟩⟩, by rintro ⟨rfl, ⟨⟩⟩⟩
    | hitExit hi _ _ h => subst hi h; exact .inl ⟨g.tP, nofun, nofun⟩
    | blink hi h1 due _ _ h => subst hi h; exact .inr (.inr ⟨f.now, hdue ▸ f.params ▸ due, nofun, nofun⟩)
    | toggle hi h1 due _ _ _ h => subst hi h; exact .inr (.inr ⟨f.now, hdue ▸ f.params ▸ due, nofun, nofun⟩)
    | give hi h1 due _ _ _ h => subst hi h; exact .inr (.inr ⟨f.now, hdue ▸ f.params ▸ due, nofun, nofun⟩)
    | mole hi h1 due h => subst hi h; exact .inr (.inr ⟨f.now, hdue ▸ f.params ▸ due, by simp [Phase.code], nofun⟩)
    | timeout hi h1 _ due h => subst hi h; exact .inr (.inr ⟨f.now, hdue ▸ f.params ▸ due, nofun, by simp [Phase.code]⟩)
    | lostToggle hi h1 due _ _ _ h => subst hi h; exact .inr (.inr ⟨f.now, hdue ▸ f.params ▸ due, nofun, nofun⟩)
    | idle hi h1 due _ h => subst hi h; exact .inr (.inr ⟨f.now, hdue ▸ f.params ▸ due, nofun, nofun⟩)
  | started hi _ _ _ phase tP => exact .inr (.inl ⟨tP, hi, phase⟩)
  | premature hi _ _ _ _ _ tP => subst hi; exact .inl ⟨tP, nofun, nofun⟩
  | hit hi _ _ _ _ _ tP => subst hi; exact .inl ⟨tP, nofun, nofun⟩
  | wrong hi _ _ _ _ _ _ tP => subst hi; exact .inl ⟨tP, nofun, nofun⟩

/-- Settles O46: the clauses read off the ways of `tD` and the ways of `tP`. -/
theorem timestampsAreWrittenOnlyByTheirWriters : Obligations.TimestampsAreWrittenOnlyByTheirWriters := by
  intro s t p hr hp h
  obtain ⟨u, hu, rfl⟩ := step_eq_next h
  have ⟨hopen, hshut, hback⟩ : (tPoll s.params p ≤ s.elapsed s.tD → u.tD = s.now) ∧
      (s.elapsed s.tD < tPoll s.params p →
        u.tD = s.tD ∨ (u.tD = s.now ∧ p = .lost ∧ u.phase = Phase.idle.code)) ∧
      (p = .lost ∧ u.phase = Phase.idle.code → u.tD = s.now) := by
    obtain ⟨htD, hi⟩ | ⟨hno, ⟨hn, htD⟩ | ⟨hn, htD⟩⟩ := tick_tD_cases hr hp hu
    · exact ⟨fun _ => htD, fun _ => .inr ⟨htD, hi⟩, fun _ => htD⟩
    · exact ⟨fun _ => htD, fun hlt => absurd hn (Nat.not_le.2 hlt), fun _ => htD⟩
    · exact ⟨fun hle => absurd hle (Nat.not_le.2 hn), fun _ => .inl htD, fun hi => absurd hi hno⟩
  obtain ⟨q, hq, e⟩ := exists_tickEffect hr hu
  obtain rfl := Phase.code_inj.1 (hp.symm.trans hq)
  refine ⟨hopen, hshut, ?_⟩
  obtain ⟨htP, hstart, hreturn⟩ | ⟨htP, hi⟩ | ⟨htP, due, hlost, hgameOn⟩ := e.tP_cases hp
  · exact ⟨fun _ => .inl htP, .inl htP, fun hi => absurd hi hstart, fun hi => absurd hi hreturn, fun _ => htP,
      fun _ => htP⟩
  · obtain ⟨rfl, -⟩ := id hi
    exact ⟨fun _ => .inr ⟨htP, hi⟩, .inr htP, fun _ => htP, nofun, nofun, nofun⟩
  · exact ⟨fun early => absurd due (Nat.not_le.2 early), .inr htP, fun _ => htP, fun hi => ⟨hback hi, htP⟩,
      fun hi => absurd hi hlost, fun hi => absurd hi hgameOn⟩

theorem PhaseEffect.given_cases {p : Phase} {m u : State} (e : PhaseEffect p m u) :
    u.given = m.given ∨ (p = .give ∧ u.phase = Phase.receive.code ∧ u.given = true) ∨
    (p = .receive ∧ u.phase = Phase.lost.code ∧ u.given = false) ∨
    (p = .gameOn ∧ u.phase = Phase.give.code ∧ m.params.givenClearOnGive = true ∧ u.given = false) := by
  cases e with
  | mole hp _ _ h => subst h; exact .inr (.inl ⟨hp, rfl, rfl⟩)
  | timeout hp _ _ _ h => subst h; exact .inr (.inr (.inl ⟨hp, rfl, rfl⟩))
  | give hp _ _ _ _ _ h =>
    subst h
    by_cases hclear : m.params.givenClearOnGive = true
    · exact .inr (.inr (.inr ⟨hp, rfl, hclear, if_pos hclear⟩))
    · exact .inl (if_neg hclear)
  | same _ h | hitExit _ _ _ h | blink _ _ _ _ _ h | toggle _ _ _ _ _ _ h | lostToggle _ _ _ _ _ _ h
  | idle _ _ _ _ h => subst h; exact .inl rfl

theorem PhaseEffect.hit_cases {p : Phase} {m u : State} (e : PhaseEffect p m u) :
    u.hit = m.hit ∨ (p = .give ∧ u.phase = Phase.receive.code ∧ u.hit = false) := by
  cases e with
  | mole hp _ _ h => subst h; exact .inr ⟨hp, rfl, rfl⟩
  | same _ h | hitExit _ _ _ h | blink _ _ _ _ _ h | toggle _ _ _ _ _ _ h | give _ _ _ _ _ _ h | timeout _ _ _ _ h
  | lostToggle _ _ _ _ _ _ h | idle _ _ _ _ h => subst h; exact .inl rfl

theorem PollEffect.hit_cases {n : Nat} {p : Phase} {s m : State} (e : PollEffect n p s m) :
    m.hit = s.hit ∨ (p = .receive ∧ m.hit = true ∧ ∃ c, s.releaseDue c ∧ s.led = onehot c) := by
  cases e with
  | quiet g => exact .inl g.hit
  | started _ _ _ _ _ _ _ _ hit => exact .inl hit
  | premature _ _ _ _ _ _ _ _ _ hit => exact .inl hit
  | hit hp _ _ c hd hb hl _ _ _ hit => exact .inr ⟨hp, hit, c, ⟨hd, hb⟩, hl⟩
  | wrong _ hh _ _ _ _ _ _ _ _ hit => exact .inl (hit.trans hh.symm)

/-- Settles O47: `given` is the phase step's alone; `hit` is set by the poll step and cleared by the phase step. -/
theorem flagsChangeOnlyAsTabled : Obligations.FlagsChangeOnlyAsTabled := by
  intro s t hr h
  obtain ⟨u, hu, rfl⟩ := step_eq_next h
  obtain ⟨p, m, hp, -, -, f, epoll, ephase, -⟩ := tick_effect hr hu
  refine and_assoc.1 ⟨?given, ?hit⟩
  case given =>
    obtain h | ⟨rfl, hphase, h⟩ | ⟨rfl, hphase, h⟩ | ⟨rfl, hphase, hclear, h⟩ := ephase.given_cases
    · rw [State.advance_given, h, f.given]
      exact ⟨.inl, .inl⟩
    · rw [State.advance_given, h]
      exact ⟨fun _ => .inr ⟨hp, hphase⟩, nofun⟩
    · rw [State.advance_given, h]
      exact ⟨nofun, fun _ => .inr (.inl ⟨hp, hphase⟩)⟩
    · rw [State.advance_given, h]
      exact ⟨nofun, fun _ => .inr (.inr ⟨hp, hphase, f.params ▸ hclear⟩)⟩
  case hit =>
    obtain h | ⟨rfl, hphase, h⟩ := ephase.hit_cases
    · obtain h' | ⟨rfl, h', hlit⟩ := epoll.hit_cases <;> rw [State.advance_hit, h, h']
      · exact ⟨.inl, .inl⟩
      · exact ⟨fun _ => .inr ⟨hp, hlit⟩, nofun⟩
    · rw [State.advance_hit, h]
      exact ⟨nofun, fun _ => .inr ⟨hp, hphase⟩⟩

end Sys2Proof.Machine

/-! The five handlers (R79 to R83): the state `s1` the poll step leaves, then the phase step on it. -/

namespace Sys2Proof.Machine

theorem phaseGate_due {p : Phase} {s : State} (hp : s.phase = p.code) (hg : p = .receive → s.hit = false)
    (due : tAction s.params p ≤ s.elapsed s.tP) : phaseGate p s = phaseAction p s.markPhase :=
  (phaseGate_of_guard hp hg).trans (if_pos due)

theorem phaseGate_shut {p : Phase} {s : State} (h : ¬ (s.phase = p.code ∧ tAction s.params p ≤ s.elapsed s.tP)) :
    phaseGate p s = .next s := by
  obtain ⟨hp, -, due, -⟩ | ⟨-, e⟩ := phaseGate_cases p s
  · exact absurd ⟨hp, due⟩ h
  · exact e

theorem exec_phGive (s : State) : exec .phGive s = phaseGate .give (pollStep (tPoll s.params .give) s) := rfl

theorem exec_phReceive (s : State) : exec .phReceive s = receiveStep (pollStep (tPoll s.params .receive) s) := rfl

theorem exec_phLost (s : State) : exec .phLost s = phaseGate .lost (pollStep (tPoll s.params .lost) s) := rfl

/-- Settles O33: the poll step keeps parameters, clock and line, so the blink is the phase gate's on the state it
leaves. -/
theorem idleHandlerPollsThenBlinks : Obligations.IdleHandlerPollsThenBlinks := by
  intro s hp
  have f := pollStep_frame (tPoll s.params .idle) s
  refine ⟨_, exec_gatePoll (p := .idle) hp, fun ⟨hp1, due⟩ r hr => ?_, fun hno => ?_⟩
  · rw [exec_phIdle, phaseGate_due (p := .idle) hp1 nofun (by rw [f.params]; exact due), phaseAction_idle (f.input ▸ hr), f.now]
  · rw [exec_phIdle, phaseGate_shut (by rw [f.params]; exact hno)]

/-- Settles O34: no event acts in GameOn, so the phase is still the handler's after the poll step. -/
theorem gameOnHandlerTogglesThenGives : Obligations.GameOnHandlerTogglesThenGives := by
  intro s hw hp
  have f := pollStep_frame (tPoll s.params .gameOn) s
  have hp1 := (pollStep_gameOn hp (tPoll s.params .gameOn)).phase.trans hp
  rw [exec_phGameOn]
  refine ⟨_, exec_gatePoll (p := .gameOn) hp, hp1, fun due => ?_, fun hno => ?_⟩
  · rw [phaseGate_due (p := .gameOn) hp1 nofun (by rw [f.params]; exact due)]
    refine ⟨fun hc => ?_, fun hc r hr => ?_⟩
    · rw [phaseAction_gameOn (by rwa [f.params]) (by rwa [f.params]), f.now]
    · rw [phaseAction_gameOn_exit (by rwa [f.params]) (f.input ▸ hr), f.now, f.params]
  · exact phaseGate_shut (by rw [f.params]; exact fun h => hno h.2)

/-- Settles O35: the guard of the phase step is what a premature release in the poll step takes away. -/
theorem giveHandlerPollsThenLightsTheMole : Obligations.GiveHandlerPollsThenLightsTheMole := by
  intro s hp
  have f := pollStep_frame (tPoll s.params .give) s
  rw [exec_phGive]
  refine ⟨_, exec_gatePoll (p := .give) hp, fun ⟨hp1, due⟩ => ?_, fun hno => ?_⟩
  · rw [phaseGate_due (p := .give) hp1 nofun (by rw [f.params]; exact due), phaseAction_give, f.now, f.target]
  · exact phaseGate_shut (by rw [f.params]; exact hno)

/-- Settles O36: the branches of the Receive phase step on the state the poll step leaves. -/
theorem receiveHandlerHitBeforeTimeout : Obligations.ReceiveHandlerHitBeforeTimeout := by
  intro s hp
  have f := pollStep_frame (tPoll s.params .receive) s
  rw [exec_phReceive]
  refine ⟨_, exec_gatePoll (p := .receive) hp, ?_⟩
  obtain ⟨hp1, hh, e⟩ | ⟨hp1, hh, e⟩ | ⟨hp1, e⟩ := receiveStep_cases (pollStep (tPoll s.params .receive) s) <;> rw [e]
  · refine ⟨fun _ => rfl, fun ⟨_, hno, _⟩ => ?_, fun h => ?_⟩
    · simp [hh] at hno
    · simp [hh, show _ = 0b011#3 from hp1] at h
  · refine ⟨fun ⟨_, hno⟩ => ?_, fun ⟨_, _, due⟩ => ?_, fun h => ?_⟩
    · simp [hh] at hno
    · rw [phaseGate_due (p := .receive) hp1 (fun _ => hh) (by rw [f.params]; exact due), phaseAction_receive, f.now]
    · refine phaseGate_shut fun ⟨_, due⟩ => ?_
      rw [f.params] at due
      exact absurd due (Nat.not_le.2 (h.resolve_left (not_not.2 hp1)).2)
  · exact ⟨fun h => absurd h.1 hp1, fun h => absurd h.1 hp1, fun _ => rfl⟩

/-- Settles O37: no event acts in Lost, so the phase is still the handler's after the poll step. -/
theorem lostHandlerTogglesThenIdles : Obligations.LostHandlerTogglesThenIdles := by
  intro s hw hp
  have f := pollStep_frame (tPoll s.params .lost) s
  have hp1 := (pollStep_lost hp (tPoll s.params .lost)).phase.trans hp
  rw [exec_phLost]
  refine ⟨_, exec_gatePoll (p := .lost) hp, hp1, fun due => ?_, fun hno => ?_⟩
  · rw [phaseGate_due (p := .lost) hp1 nofun (by rw [f.params]; exact due)]
    refine ⟨fun hc => ?_, fun hc => ?_⟩
    · rw [phaseAction_lost (by rwa [f.params]) (by rwa [f.params]), f.now, f.target]
    · rw [phaseAction_lost_exit (by rwa [f.params]), f.now]
  · exact phaseGate_shut (by rw [f.params]; exact fun h => hno h.2)

end Sys2Proof.Machine

/-! Whole ticks that an event of the poll decides (R85, R86, R90), on any line, `rnd` given or not. -/

namespace Sys2Proof.Machine

/-- A polling tick whose event has moved the phase ends with the poll: the phase step's guard is shut (R78). -/
theorem exec_tick_of_event {p q : Phase} {s : State} (hw : s.params.wf = true) (hr : s.rst = false)
    (hp : s.phase = p.code) (hn : tPoll s.params p ≤ s.elapsed s.tD) (hq : (pollPass s.markPoll).phase = q.code)
    (hne : p ≠ q) : exec .tick s = .next (pollPass s.markPoll) := by
  rw [exec_tick_of_steps hw hp hr, pollStep_open hn, phaseStep_other hq hne]

theorem phaseStep_receive_hit {s : State} (hp : s.phase = Phase.receive.code) (hh : s.hit = true) :
    phaseStep .receive s = .next { s with led := 0b0000#4, phase := 0b001#3 } := by
  obtain ⟨-, -, e⟩ | ⟨-, hno, -⟩ | ⟨hno, -⟩ := receiveStep_cases s
  · exact e
  · rw [hh] at hno; cases hno
  · exact absurd hp hno

/-- Settles O40: the poll leaves GameOn, so the tick ends with it. -/
theorem idlePressStartsTheRound : Obligations.IdlePressStartsTheRound := by
  intro s hw hr hp hn ⟨c, hc⟩
  obtain ⟨hno, -⟩ | ⟨-, hphase, hcnt, htP, hhit, hled⟩ := pollPass_idle (s := s.markPoll) hp
  · exact absurd hc (hno c)
  · have f := pollPass_frame s.markPoll
    exact ⟨_, exec_tick_of_event (p := .idle) hw hr hp hn hphase nofun, hphase, hcnt, htP, f.tD, hled, f.target,
      f.given, hhit⟩

/-- Settles O42: the poll leaves Lost, so the tick ends with it. -/
theorem prematureReleaseLoses : Obligations.PrematureReleaseLoses := by
  intro s hw hr hp hg hn ⟨c, hc⟩
  obtain ⟨hno, -⟩ | ⟨-, hphase, hcnt, htP, hhit, hled⟩ := pollPass_give (s := s.markPoll) hp hg
  · exact absurd hc (hno c)
  · have f := pollPass_frame s.markPoll
    exact ⟨_, exec_tick_of_event (p := .give) hw hr hp hn hphase nofun, hphase, hled, hcnt, htP, f.given.trans hg,
      hhit, f.tD⟩

/-- Settles O43: the channel that decided the poll is the lowest with a release due; a lit one leaves a hit, which the hit
exit takes in the same tick, another one leaves Lost. -/
theorem lowestReleaseDecidesTheRound : Obligations.LowestReleaseDecidesTheRound := by
  intro s c hw hr hp hh hn hc hlowest
  obtain ⟨hno, -⟩ | ⟨d, hd, hlowest', hcnt, htP, hdecided⟩ := pollPass_receive (s := s.markPoll) hp hh
  · exact absurd hc (hno c)
  obtain rfl : d = c := le_antisymm (not_lt.1 fun h => hlowest' c h hc) (not_lt.1 fun h => hlowest d h hd)
  have f := pollPass_frame s.markPoll
  obtain ⟨hlit, hphase, hhit, -⟩ | ⟨hlit, hphase, hhit, hled⟩ := hdecided
  · refine ⟨{ pollPass s.markPoll with led := 0b0000#4, phase := 0b001#3 }, ?_, rfl, htP, f.tD, hcnt, f.given,
      f.target, fun _ => ⟨rfl, hhit⟩, fun hno => absurd hlit hno⟩
    rw [exec_tick_of_steps (p := .receive) hw hp hr, pollStep_open (n := tPoll s.params .receive) hn,
      phaseStep_receive_hit hphase hhit]
  · exact ⟨_, exec_tick_of_event (p := .receive) hw hr hp hn hphase nofun, hled, htP, f.tD, hcnt, f.given, f.target,
      fun hno => absurd hno hlit, fun _ => ⟨hphase, hhit⟩⟩

end Sys2Proof.Machine

/-! A tick on another line with the same `now`, buttons and reset: where it reads no `rnd`, it goes on alike (R93). -/

namespace Sys2Proof.Machine

/-- The poll step reads `now` and the buttons only, so it does alike on two inputs that agree in them. -/
def SamePollInputs (st : List TickLine) (s : State) : Prop :=
  (s.withStim st).now = s.now ∧ ∀ i, (s.withStim st).btn i = s.btn i

theorem samePollInputs_keptByWrites (st : List TickLine) : KeptByWrites (SamePollInputs st) := by
  constructor <;> intros <;> assumption

section
variable {s t : State} {st : List TickLine} {p : Phase}

theorem eventPress_withStim (hn : (s.withStim st).now = s.now) (i : Channel) :
    eventPress i (s.withStim st) = (eventPress i s).withStim st := by
  by_cases h : s.phase = Phase.idle.code
  · rw [eventPress_idle h, eventPress_idle (s := s.withStim st) h]
    exact State.markPhase_withStim (s := (s.setPhase .gameOn).setCnt 0) hn
  · rw [eventPress_other h, eventPress_other (s := s.withStim st) h]

theorem eventRelease_withStim (i : Channel) : eventRelease i (s.withStim st) = (eventRelease i s).withStim st := by
  have hpremature : (s.withStim st).premature = s.premature := rfl
  have hcomparing : (s.withStim st).comparing = s.comparing := rfl
  rw [eventRelease, eventRelease, hpremature, hcomparing, State.withStim_led]
  split_ifs <;> rfl

theorem debStep_withStim (h : SamePollInputs st s) (i : Channel) :
    debStep i (s.withStim st) = (debStep i s).withStim st := by
  rw [debStep_eq, debStep_eq, h.2 i, State.withStim_deb]
  split_ifs
  · exact eventPress_withStim (s := s.setDeb i .down) h.1 i
  · exact eventRelease_withStim (s := s.setDeb i .rising) i
  · rfl

theorem pollPass_withStim (h : SamePollInputs st s) : pollPass (s.withStim st) = (pollPass s).withStim st := by
  have k := samePollInputs_keptByWrites st
  have h1 := k.debStep 0 h
  have h2 := k.debStep 1 h1
  have h3 := k.debStep 2 h2
  simp only [pollPass, debStep_withStim h, debStep_withStim h1, debStep_withStim h2, debStep_withStim h3]

theorem pollStep_withStim (h : SamePollInputs st s) (n : Nat) :
    pollStep n (s.withStim st) = (pollStep n s).withStim st := by
  have he : (s.withStim st).elapsed (s.withStim st).tD = s.elapsed s.tD := State.elapsed_withStim h.1 s.tD
  rcases Nat.lt_or_ge (s.elapsed s.tD) n with hn | hn
  · rw [pollStep_closed hn, pollStep_closed (he.trans_lt hn)]
  · rw [pollStep_open hn, pollStep_open (hn.trans_eq he.symm), State.markPoll_withStim h.1]
    exact pollPass_withStim (s := s.markPoll) h

/-- The phase actions that read `rnd`: the blink, and the entry to Give. -/
def ReadsRnd (p : Phase) (s : State) : Prop := p = .idle ∨ (p = .gameOn ∧ ¬ s.cnt < s.params.nGameOnToggles)

theorem phaseAction_withStim_of_unread (hn : (s.withStim st).now = s.now) (hread : ¬ ReadsRnd p s)
    (h : phaseAction p s = .next t) : phaseAction p (s.withStim st) = .next (t.withStim st) := by
  cases p with
  | idle => exact absurd (.inl rfl) hread
  | gameOn =>
    obtain ⟨hc, rfl⟩ | ⟨hc, -⟩ := gameOnAction_eq_next h
    · exact gameOnAction_toggle (s := s.withStim st) hc
    · exact absurd (.inr ⟨rfl, hc⟩) hread
  | give => cases h; rfl
  | receive => cases h; rfl
  | lost =>
    obtain ⟨hc, rfl⟩ | ⟨hc, rfl⟩ := lostAction_eq_next h
    · exact lostAction_toggle (s := s.withStim st) hc
    · exact (lostAction_exit (s := s.withStim st) hc).trans
        (congrArg (fun m => Host.Outcome.next ((m.setLed allOff).setPhase .idle))
          (State.markPoll_withStim (s := s.setCnt 0) hn))

theorem phaseGate_withStim_of_unread (hn : (s.withStim st).now = s.now)
    (hread : s.phase = p.code → tAction s.params p ≤ s.elapsed s.tP → ¬ ReadsRnd p s) (h : phaseGate p s = .next t) :
    phaseGate p (s.withStim st) = .next (t.withStim st) := by
  have he := State.elapsed_withStim hn s.tP
  obtain ⟨hp, hh, due, e⟩ | ⟨hno, e⟩ := phaseGate_cases p s <;> rw [e] at h
  · rw [phaseGate_due (s := s.withStim st) hp hh (due.trans_eq he.symm), State.markPhase_withStim hn]
    exact phaseAction_withStim_of_unread (s := s.markPhase) hn (hread hp due) h
  · cases h
    obtain ⟨hp, hh, due, -⟩ | ⟨-, e'⟩ := phaseGate_cases p (s.withStim st)
    · exact absurd ⟨hp, hh, due.trans_eq he⟩ hno
    · exact e'

theorem phaseStep_withStim_of_unread (hn : (s.withStim st).now = s.now)
    (hread : s.phase = p.code → tAction s.params p ≤ s.elapsed s.tP → ¬ ReadsRnd p s) (h : phaseStep p s = .next t) :
    phaseStep p (s.withStim st) = .next (t.withStim st) := by
  cases p
  case receive =>
    change receiveStep _ = _ at h ⊢
    unfold receiveStep at h ⊢
    rw [State.withStim_phase, State.withStim_hit]
    split_ifs at h ⊢
    · cases h; rfl
    · exact phaseGate_withStim_of_unread hn hread h
    · cases h; rfl
  all_goals exact phaseGate_withStim_of_unread hn hread h

/-- A poll step that stays in Idle or in GameOn has raised no event that acts. -/
theorem pollStep_sameGame_of_stay {n : Nat} (hp : s.phase = p.code) (hi : p = .idle ∨ p = .gameOn)
    (hstay : (pollStep n s).phase = p.code) : SameGame s (pollStep n s) := by
  cases pollStep_effect hp n with
  | quiet g => exact g
  | started h _ _ _ _ hphase => subst h; simp [hphase] at hstay
  | premature h | hit h | wrong h => subst h; simp at hi

/-- Where the phase step would read `rnd`, the phase, the elapsed time and the counter are those of the tick's start. -/
theorem not_readsRnd_pollStep {n : Nat} (hp : s.phase = p.code)
    (hread : tAction s.params p ≤ s.elapsed s.tP → ¬ ReadsRnd p s) (hstay : (pollStep n s).phase = p.code)
    (due : tAction (pollStep n s).params p ≤ (pollStep n s).elapsed (pollStep n s).tP) : ¬ ReadsRnd p (pollStep n s) := by
  intro hreads
  have f := pollStep_frame n s
  have g := pollStep_sameGame_of_stay hp (hreads.imp_right And.left) hstay
  rw [g.tP, f.elapsed, f.params] at due
  rw [ReadsRnd, g.cnt, f.params] at hreads
  exact hread due hreads

/-- A tick that reads no `rnd` goes on alike on any line with the same `now`, buttons and reset. -/
theorem exec_tick_withStim_of_unread (hin : SamePollInputs st s) (hrst : (s.withStim st).rst = s.rst)
    (hread : ∀ p : Phase, s.phase = p.code → tAction s.params p ≤ s.elapsed s.tP → ¬ ReadsRnd p s)
    (h : exec .tick s = .next t) : exec .tick (s.withStim st) = .next (t.withStim st) := by
  obtain ⟨hw, ⟨hr, rfl⟩ | ⟨hr, -, p, hp⟩⟩ := execTick_eq_next h
  · exact execTick_reset (s := s.withStim st) hw (hrst.trans hr)
  · obtain ⟨-, hstep⟩ := tick_run hp hr h
    have hn := ((samePollInputs_keptByWrites st).pollStep (tPoll s.params p) hin).1
    calc exec .tick (s.withStim st)
      _ = phaseStep p (pollStep (tPoll s.params p) (s.withStim st)) :=
        exec_tick_of_steps (s := s.withStim st) hw hp (hrst.trans hr)
      _ = phaseStep p ((pollStep (tPoll s.params p) s).withStim st) := by rw [pollStep_withStim hin]
      _ = .next (t.withStim st) :=
        phaseStep_withStim_of_unread hn (not_readsRnd_pollStep hp (hread p hp)) hstep

end

/-- Settles O44: the two lines have the same `now`, buttons and reset, and the premises are the two readers' conditions. -/
theorem randomIsReadOnlyForBlinkAndTarget : Obligations.RandomIsReadOnlyForBlinkAndTarget := by
  intro s t l ls r hst hblink hexit h
  have hin : s.input = l := by rw [State.input, hst]
  refine exec_tick_withStim_of_unread (st := { l with rnd := r } :: ls) ⟨?_, fun i => ?_⟩ ?_ ?_ h
  · rw [State.now, State.now, hin]; rfl
  · rw [State.btn, State.btn, hin]; rfl
  · rw [State.rst, State.rst, hin]; rfl
  · rintro p hp due (rfl | ⟨rfl, hc⟩)
    · exact hblink ⟨hp, due⟩
    · exact hexit ⟨hp, hc, due⟩

end Sys2Proof.Machine

/-! One step as the tick's operation (R46, R77), the events executed by themselves (R85, R86), and the illegal phases
(R84). -/

namespace Sys2Proof.Machine

/-- The phase register read as a PH key. -/
theorem decodeWord_phase (c : BitVec 3) : decodeWord ⟨.ph, 0, c.toNat⟩ = .ok (decodePh c) := by
  rw [decodeWord, if_pos (by exact c.isLt)]
  simp

/-- Settles O5: the selected operation is the handler, and it leaves the inputs for the advance to use up. -/
theorem stepRunsTheDecodedHandler : Obligations.StepRunsTheDecodedHandler := by
  intro s i hw hr hi
  obtain rfl : decodePh s.phase = i := Except.ok.inj ((decodeWord_phase s.phase).symm.trans hi)
  have hstep : step s = afterTick (exec (decodePh s.phase) s) := by
    rw [← handler_eq_exec, ← execTick_run hw hr]
    rfl
  rw [hstep]
  cases h : exec (decodePh s.phase) s with
  | next t =>
    obtain ⟨-, hstim, hticks⟩ := noOperationWritesParametersOrInputs _ s t h
    rw [afterTick_next, State.advance, hstim, hticks]
  | fault f => cases f
  | refused r => rfl

/-- Settles O11: the rows carry the phase register's code, and a tick in such a phase selects one of them. -/
theorem illegalPhaseIsRefused : Obligations.IllegalPhaseIsRefused := by
  refine ⟨fun s => ⟨fun hp => hp ▸ rfl, fun hp => hp ▸ rfl, fun hp => hp ▸ rfl⟩, fun s hw hr hp => ?_⟩
  rw [step_eq_refused_iff, execTick_run hw hr, handler_illegal (phaseOf_eq_none.2 hp)]

/-- Settles O55: no row of PH.ILLEGAL reads anything but the phase register. -/
theorem illegalRowsRefuseInEveryPhase : Obligations.IllegalRowsRefuseInEveryPhase :=
  fun _ => ⟨rfl, rfl, rfl⟩

/-- Settles O21: the test of PRESS is the phase alone. -/
theorem pressStartsARoundOnlyInIdle : Obligations.PressStartsARoundOnlyInIdle := by
  refine fun c s _ => ⟨fun hidle => ?_, fun hother => congrArg Host.Outcome.next (eventPress_other hother)⟩
  rw [exec, execEvtPress, eventPress_idle hidle]
  rfl

theorem eventRelease_premature {i : Channel} {s : State} (h : s.phase = Phase.give.code ∧ s.given = false) :
    eventRelease i s = s.setPhase .lost := if_pos (s.premature_iff.2 h)

theorem eventRelease_comparing {i : Channel} {s : State} (h : s.phase = Phase.receive.code ∧ s.hit = false) :
    eventRelease i s = if s.led = onehot i then s.setHit true else (ledOff (s.setHit false)).setPhase .lost := by
  have hno : ¬ s.premature = true := by simp [s.premature_iff, h.1]
  rw [eventRelease, if_neg hno, if_pos (s.comparing_iff.2 h)]

theorem eventRelease_none {i : Channel} {s : State} (hgive : ¬ (s.phase = Phase.give.code ∧ s.given = false))
    (hreceive : ¬ (s.phase = Phase.receive.code ∧ s.hit = false)) : eventRelease i s = s := by
  rw [eventRelease, if_neg (mt s.premature_iff.1 hgive), if_neg (mt s.comparing_iff.1 hreceive)]

/-- Settles O22: the branches of RELEASE. -/
theorem releaseMakesTheGameplayComparisons : Obligations.ReleaseMakesTheGameplayComparisons := by
  refine fun c s _ => ⟨fun h => congrArg Host.Outcome.next (eventRelease_premature h),
    fun ⟨hp, hh, hl⟩ => congrArg Host.Outcome.next ?_, fun ⟨hp, hh, hl⟩ => congrArg Host.Outcome.next ?_,
    fun ⟨hgive, hreceive⟩ => congrArg Host.Outcome.next (eventRelease_none hgive hreceive)⟩
  · exact (eventRelease_comparing ⟨hp, hh⟩).trans (if_pos hl)
  · exact (eventRelease_comparing ⟨hp, hh⟩).trans (if_neg hl)

end Sys2Proof.Machine

/-! The LED mux (R97 to R103): its commands executed by themselves, and the values a tick lets it issue. -/

namespace Sys2Proof.Machine

/-- Settles O12: 011 is the key word that MUX.RSVD encodes to, and its row refuses without reading the state. -/
theorem reservedMuxSelectIsRefused : Obligations.ReservedMuxSelectIsRefused :=
  ⟨decodeWord_of_encode rfl, fun _ => rfl⟩

/-- Settles O15: each command but HOLD is one write of `led`, and the mask of a channel has that channel's bit only. -/
theorem muxCommandsWriteOnlyLed : Obligations.MuxCommandsWriteOnlyLed :=
  fun s idx => ⟨rfl, rfl, rfl, ledOne idx s, rfl, rfl, onehot_getLsbD idx⟩

theorem ledLegal_on : LedLegal 0b1111#4 := .inr (.inl rfl)

theorem ledLegal_onehot (i : Channel) : LedLegal (onehot i) := .inr (.inr ⟨i, rfl⟩)

/-- The poll step writes `led` on a wrong press only, and then all off (R86). -/
theorem PollEffect.led_cases {n : Nat} {p : Phase} {s m : State} (e : PollEffect n p s m) :
    m.led = s.led ∨ m.led = 0b0000#4 := by
  cases e with
  | quiet g => exact .inl g.led
  | started _ _ _ _ _ _ _ _ _ led | premature _ _ _ _ _ _ _ _ _ _ led | hit _ _ _ _ _ _ _ _ _ _ _ led => exact .inl led
  | wrong _ _ _ _ _ _ _ _ _ _ _ led => exact .inr led

/-- The phase step that writes `led` writes all off, a blink between all on and all off, or the mask of one channel
(R79 to R83). -/
theorem PhaseEffect.led_cases {p : Phase} {m u : State} (e : PhaseEffect p m u) : u.led = m.led ∨ LedLegal u.led := by
  cases e with
  | same _ h => exact .inl (congrArg State.led h)
  | hitExit _ _ _ h | give _ _ _ _ _ _ h | timeout _ _ _ _ h | idle _ _ _ _ h => subst h; exact .inr ledLegal_off
  | blink _ _ _ r _ h => subst h; exact .inr (ledLegal_onehot r)
  | mole _ _ _ h => subst h; exact .inr (ledLegal_onehot m.target)
  | toggle _ _ _ _ v hv h =>
    subst h
    obtain rfl | rfl := hv
    · exact .inr ledLegal_on
    · exact .inr ledLegal_off
  | lostToggle _ _ _ _ v hv h =>
    subst h
    obtain rfl | rfl := hv
    · exact .inr (ledLegal_onehot m.target)
    · exact .inr ledLegal_off

/-- Settles O49: the reset load writes all off; else the phase step's value stands, or, where it writes none, the poll
step's. -/
theorem ticksWriteOnlyMuxValuesToLed : Obligations.TicksWriteOnlyMuxValuesToLed := by
  intro s t h
  obtain ⟨u, hu, rfl⟩ := step_eq_next h
  rw [State.advance_led]
  obtain ⟨-, ⟨-, rfl⟩ | ⟨hr, -⟩⟩ := execTick_eq_next hu
  · exact .inr ledLegal_off
  · obtain ⟨p, m, -, -, -, -, epoll, ephase, -⟩ := tick_effect hr hu
    obtain hu' | hlegal := ephase.led_cases
    · rw [hu']
      exact epoll.led_cases.imp_right Or.inl
    · exact .inr hlegal

end Sys2Proof.Machine

/-! The reset load (R117), and a press held over two polls in Idle (R120, R122). -/

namespace Sys2Proof.Machine

/-- Settles O7: the tick's next state is the reset load. -/
theorem resetTickLoadsResetState : Obligations.ResetTickLoadsResetState :=
  fun _ hw hr => ⟨_, execTick_reset hw hr, DebFile.get_all .up, rfl, rfl, rfl, rfl, rfl, rfl, rfl, rfl, rfl, rfl, rfl⟩

/-- Settles O8: each register and parameter set is the written one, and the defaults pass the check of R7. -/
theorem resetStateHoldsTheResetTable : Obligations.ResetStateHoldsTheResetTable :=
  ⟨DebFile.get_all .up, rfl, rfl, rfl, rfl, rfl, rfl, rfl, rfl, rfl, by decide⟩

/-- A polling tick moves each channel as the poll does: the phase step writes no debounce register. -/
theorem get_deb_of_polling_tick {p : Phase} {s u : State} (hp : s.phase = p.code) (hr : s.rst = false)
    (hn : tPoll s.params p ≤ s.elapsed s.tD) (h : exec .tick s = .next u) (c : Channel) :
    u.deb.get c = debNext (s.deb.get c) (s.btn c) := by
  obtain ⟨-, hphase⟩ := tick_run hp hr h
  rw [pollStep_open hn] at hphase
  rw [(phaseStep_frame hphase).deb]
  exact (pollPass_frame s.markPoll).deb c

/-- Settles O41: the first polling tick leaves the channel at Falling, so the second one finds its press due. -/
theorem heldPressStartsTheRound : Obligations.HeldPressStartsTheRound := by
  intro s m s1 c hr hp hn hup hpressed hstep hkept hw1 hp1 hr1 hn1 hpressed1
  obtain ⟨u, hu, rfl⟩ := step_eq_next hstep
  have hfalling : s1.deb.get c = .falling := by
    rw [hkept, State.advance_deb, get_deb_of_polling_tick (p := .idle) hp hr hn hu, hup, hpressed]
    rfl
  obtain ⟨t, ht, hphase, hcnt, htP, -⟩ := idlePressStartsTheRound s1 hw1 hr1 hp1 hn1 ⟨c, hfalling, hpressed1⟩
  exact ⟨t.advance, congrArg afterTick ht, hphase, hcnt, htP⟩

end Sys2Proof.Machine
